-- ==== Sys2Proof/Word.lean ====
section
/-! DEFINITION. The words of the NF-4812: bytes, and the numbers the manual gives a fixed range
(ports 0 to 47, gates 0 to 1023, table slots 0 to 2047, programs 0 to 15). -/

namespace Sys2Proof

/-- A byte of either link. -/
abbrev Byte := BitVec 8

/-- A downlink port, 0 to 47 (00_scope.md, Main quantities). -/
abbrev Port := Fin 48

/-- A gate, 0 to 1023 (00_scope.md, Main quantities). -/
abbrev GateNo := Fin 1024

/-- A slot of the Responder Table, 0 to 2047 (R38). -/
abbrev Slot := Fin 2048

/-- A release program, 0 to 15 (R72). -/
abbrev ProgNo := Fin 16

end Sys2Proof
end

