-- ==== Sys2Proof/Syntax.lean ====
section
/-! DEFINITION. The commands of the NF-4812, one constructor for each row of spec/opcode_table.json,
and the two kinds of data that cross the links: lane symbols and fabric records. -/

namespace Sys2Proof

/-- A symbol of the fabric lane as the receiver sees it: a data byte, or the sync word, which is the
control pair 0xA5 0x3C (section 1.1). No other control symbol has a meaning in the manual. -/
inductive LaneSym where
  | data (b : Byte)
  | sync
deriving DecidableEq, Repr

/-- A gate and the epoch of one binding of it: an entry's gate reference (R39), or the gate fields
of a Flow End. -/
structure GateRef where
  gate  : GateNo
  epoch : BitVec 4
deriving DecidableEq, Repr

/-- An inbound fabric record that has passed the checks of R13, with the fields of Table 13-3. -/
inductive InRecord where
  /-- Occupancy Report: port, sequence, queue cells Q, drained counter D. -/
  | occupancy (port : Port) (seq cells : BitVec 16) (drained : BitVec 32)
  /-- Sighting: flow hash, victim port, ingress port, service number. -/
  | sighting (hash : BitVec 32) (port : Port) (ingress : BitVec 6) (service : BitVec 16)
  /-- Flow End: flow hash, victim port, gate and epoch (present when the flag is set), allowance left. -/
  | flowEnd (hash : BitVec 32) (port : Port) (gate : Option GateRef) (left : BitVec 24)
  /-- Gate Spent: gate, epoch, echoed add number, flow hash. -/
  | gateSpent (gate : GateNo) (epoch : BitVec 4) (echo : BitVec 8) (hash : BitVec 32)
  /-- Hold Pressure: gate, epoch, flow hash, held bytes. -/
  | holdPressure (gate : GateNo) (epoch : BitVec 4) (hash : BitVec 32) (held : BitVec 24)
deriving DecidableEq, Repr

/-- The commands. A record command carries the record's fields; a request command carries the
request's tag and its body bytes (the kind is the command's own); an expiry names its port; the
aging event names the slot of the entry. -/
inductive Instr where
  -- the fabric receiver and the records it hands over
  | fabricFrameEvent (syms : List LaneSym)
  | occupancyReport (port : Port) (seq cells : BitVec 16) (drained : BitVec 32)
  | sighting (hash : BitVec 32) (port : Port) (ingress : BitVec 6) (service : BitVec 16)
  | flowEnd (hash : BitVec 32) (port : Port) (gate : Option GateRef) (left : BitVec 24)
  | gateSpent (gate : GateNo) (epoch : BitVec 4) (echo : BitVec 8) (hash : BitVec 32)
  | holdPressure (gate : GateNo) (epoch : BitVec 4) (hash : BitVec 32) (held : BitVec 24)
  -- timers
  | debounceExpiry (port : Port)
  | staleExpiry (port : Port)
  | guardExpiry (port : Port)
  | drainExpiry (port : Port)
  | cooldownExpiry (port : Port)
  | agingEvent (slot : Slot)
  | idleIntervalExpiry
  -- the two transmitters, the control receiver and the reset pin
  | fabricTransmitComplete
  | ctlByteReceived (b : Byte)
  | ctlFramingError
  | interByteGapExpiry
  | ctlTransmitComplete
  | resetNAssert
  | deviceResetComplete
  -- requests
  | identify (tag : Byte) (body : List Byte)
  | resetDevice (tag : Byte) (body : List Byte)
  | status (tag : Byte) (body : List Byte)
  | time (tag : Byte) (body : List Byte)
  | setDevice (tag : Byte) (body : List Byte)
  | linkStart (tag : Byte) (body : List Byte)
  | linkStop (tag : Byte) (body : List Byte)
  | linkReset (tag : Byte) (body : List Byte)
  | setPort (tag : Byte) (body : List Byte)
  | getPort (tag : Byte) (body : List Byte)
  | arm (tag : Byte) (body : List Byte)
  | disarm (tag : Byte) (body : List Byte)
  | startRelief (tag : Byte) (body : List Byte)
  | stopRelief (tag : Byte) (body : List Byte)
  | pause (tag : Byte) (body : List Byte)
  | resume (tag : Byte) (body : List Byte)
  | setLevels (tag : Byte) (body : List Byte)
  | getLevels (tag : Byte) (body : List Byte)
  | setWindow (tag : Byte) (body : List Byte)
  | getWindow (tag : Byte) (body : List Byte)
  | setDefaultClass (tag : Byte) (body : List Byte)
  | writeProgram (tag : Byte) (body : List Byte)
  | readProgram (tag : Byte) (body : List Byte)
  | readTable (tag : Byte) (body : List Byte)
  | clearHistory (tag : Byte) (body : List Byte)
  | setNoticeLevels (tag : Byte) (body : List Byte)
  | readFault (tag : Byte) (body : List Byte)
  | unknownRequest (kind tag : Byte) (body : List Byte)
  | resetNRelease
deriving DecidableEq, Repr

end Sys2Proof
end

