-- ==== Sys2Proof/Decode.lean ====
section
/-! DEFINITION. The command that a word of the opcode table spells. The table gives no row any bits
(spec/98_reader.md: no row with "fixed" or "fields"), so no word spells a command. The bytes that do spell
requests and records on the two links are read in Machine/Operands.lean, Machine/Fabric.lean and
Machine/Control.lean. -/

namespace Sys2Proof

/-- The command that a word spells: none, since no row of spec/opcode_table.json gives bits. -/
def decodeTableWord (_nbits _w : Nat) : Option Instr := none

end Sys2Proof
end

