-- ==== Sys2Proof/Config.lean ====
section
/-! DEFINITION. What one part fixes and the spec does not: the factory serial number, and the free
values (notes/assumptions/2.md). Neither has a body, so a claim holds whatever they are. -/

namespace Sys2Proof

/-- The 48-bit factory serial number, fixed in the part (R188). -/
opaque Config.serialNumber : BitVec 48

/-- DESIGN CHOICE (free value): the program byte that GET_PORT returns while the standby slot is
absent. R86 and Table 13-8 give the position and no value. It is applied to the state's own counter
`State.free`, so two reads need not agree. -/
opaque Config.absentStandbyProgram : Nat → Byte

end Sys2Proof
end

