-- ==== Sys2Proof/Machine/State.lean ====
section
/-! DEFINITION. The state of the NF-4812 as plain data: one structure for each of the twelve blocks of
00_scope.md section 3, the reset condition, and the queue of commands. `State.reset` is the part
right after a device reset has completed. -/

namespace Sys2Proof.Machine

/-! ### Why a step may stop -/

/-- There is no fault: the manual gives every command an effect in every state, so no rule stops the
part, and the closed list of reasons is empty. -/
inductive Fault
deriving DecidableEq, Repr

/-- Why a command is not run. -/
inductive Refusal where
  /-- Raised by the dispatch for a command that has no meaning yet. Safe: nothing is claimed of it. -/
  | notModelled (mnemonic : String)
deriving DecidableEq, Repr

/-! ### Time -/

/-- A timer of R21 and R22. `start` is on the model's unwrapped count of microseconds
(notes/assumptions/1.md). -/
inductive Timer where
  | stopped
  | running (start setting : Nat)
  | frozen (elapsed setting : Nat)
deriving DecidableEq, Repr

/-- Time Base (TMB). `micros` counts the microseconds since the last device reset completed; the
32-bit counter of R20 is its low 32 bits (notes/assumptions/1.md). -/
structure Tmb where
  micros : Nat
deriving DecidableEq, Repr

/-- The condition of the device reset (R191, R196). -/
inductive ResetPhase where
  /-- No reset is in progress. -/
  | running
  /-- RESET_N is low: the part is held in reset. -/
  | held
  /-- RESET_N is high and a reset is in progress. -/
  | completing
deriving DecidableEq, Repr

/-! ### Fabric Link Controller -/

/-- Link states of Table 1-2. -/
inductive LinkState where
  | down | syncing | up | faulted | stopping
deriving DecidableEq, Repr

/-- The frame receiver (R1): hunting for a sync word, or reading a frame with the bytes received
since its sync word. -/
inductive FabRx where
  | hunting
  | reading (bytes : List Byte)
deriving DecidableEq, Repr

/-- The idle interval timer of R16. -/
inductive IdleTimer where
  | stopped
  /-- Started at the start of the last outbound frame. -/
  | running (start : Nat)
  /-- The interval has run out and no frame has begun since. -/
  | runOut
deriving DecidableEq, Repr

/-- The link counters of Table 1-5, each 32-bit saturating. -/
structure LinkCounters where
  wellFormed   : Nat
  malformed    : Nat
  lost         : Nat
  discarded    : Nat
  recordErrors : Nat
  linkFaults   : Nat
  framesSent   : Nat
  ordersSent   : Nat
deriving DecidableEq, Repr

/-- Fabric Link Controller (FLC). -/
structure Flc where
  link       : LinkState
  rx         : FabRx
  /-- The expected sequence, 16 bits. -/
  expected   : BitVec 16
  /-- The consecutive error count, 0 to 255. -/
  errCount   : Nat
  /-- The fault limit, 1 to 255. -/
  faultLimit : Nat
  /-- The outbound sequence, 16 bits. -/
  outSeq     : BitVec 16
  idle       : IdleTimer
  /-- The frame on the lane while the transmitter sends one; none when it is free. -/
  tx         : Option (List LaneSym)
  /-- Checked records of taken frames not yet taken by their blocks, in frame order (R14). -/
  handed     : List InRecord
  ctr        : LinkCounters
deriving DecidableEq, Repr

/-! ### Occupancy Evaluator -/

/-- OEV state of one port (Table 2-3). -/
structure OevPort where
  baseline    : Bool
  lastSeq     : BitVec 16
  lastDrained : BitVec 32
  level       : Nat
  peak        : Nat
  accepted    : Nat
  stale       : Nat
  clamps      : Nat
deriving DecidableEq, Repr

/-- Occupancy Evaluator (OEV): four level sets of fifteen thresholds (index i holds T(i+1)), and the
state of each port. -/
structure Oev where
  sets : Vector (Vector Nat 15) 4
  port : Vector OevPort 48
deriving DecidableEq, Repr

/-! ### Responder Table -/

/-- Entry states of Table 3-2. -/
inductive EntryState where
  | seen | waiting | admitted | released | bypassed | ungated
deriving DecidableEq, Repr

/-- A responder entry (Table 3-1). The two times are on the unwrapped count of microseconds. -/
structure Entry where
  hash         : BitVec 32
  port         : Port
  ingress      : BitVec 6
  service      : BitVec 16
  /-- Class number: window 0 to 7, or 8 for DEFAULT. -/
  cls          : Fin 9
  eligible     : Bool
  band         : Fin 4
  cap          : Nat
  state        : EntryState
  gate         : Option GateRef
  dry          : Option Bool
  overdraft    : Option Bool
  granted      : Nat
  lastHeld     : Option (BitVec 24)
  firstSeen    : Nat
  lastActivity : Nat
deriving DecidableEq, Repr

/-- The Responder Table counters of Table 3-4. -/
structure RtbCounters where
  sightings      : Nat
  created        : Nat
  evictions      : Nat
  lost           : Nat
  agedOut        : Nat
  flowEnds       : Nat
  unknownEnds    : Nat
  gateMismatches : Nat
deriving DecidableEq, Repr

/-- Responder Table (RTB): the occupied slots in rising slot order, the arrival list of each port,
the age limit and the counters. An unlisted slot is empty. -/
structure Rtb where
  table    : List (Slot × Entry)
  arrival  : Vector (List Slot) 48
  ageLimit : Nat
  ctr      : RtbCounters
deriving DecidableEq, Repr

/-! ### Class Map -/

/-- Window ranks. -/
inductive Rank where
  | pinned | broad
deriving DecidableEq, Repr

/-- The three class parameters. -/
structure ClassParams where
  eligible : Bool
  band     : Fin 4
  cap      : Nat
deriving DecidableEq, Repr

/-- A service window (Table 4-1); `hits` is its match count. -/
structure Window where
  enable : Bool
  base   : BitVec 16
  /-- The size exponent k. -/
  size   : Fin 16
  rank   : Rank
  params : ClassParams
  hits   : Nat
deriving DecidableEq, Repr

/-- Class Map (CMP): eight windows and the default class with its match count. -/
structure Cmp where
  windows : Vector Window 8
  dflt    : ClassParams
  dfltHits : Nat
deriving DecidableEq, Repr

/-! ### Program Store -/

/-- The resolution of a step or of a gate. -/
inductive Resolution where
  | coarse | fine
deriving DecidableEq, Repr

/-- Condition kinds of R74. -/
inductive CondKind where
  | budget | level | queueEmpty | guardOnly
deriving DecidableEq, Repr

/-- A stored step (Table 5-1). -/
structure Step where
  /-- Aggregate divisor Pt, 0 to 4,095. -/
  pt     : Nat
  res    : Resolution
  /-- Width W, 1 to 64. -/
  width  : Nat
  fa     : Nat
  fb     : Nat
  /-- Ceiling level Lc, 1 to 15. -/
  lc     : Nat
  /-- Step budget B; 0 means unlimited. -/
  budget : Nat
  kind   : CondKind
  /-- Transfer level Lt. -/
  lt     : Nat
  /-- Guard in µs; 0 means no guard. -/
  guard  : Nat
deriving DecidableEq, Repr

/-- Program Store (PGS): sixteen programs. The pool steps in use are the sum of their lengths. -/
structure Pgs where
  programs : Vector (List Step) 16
deriving DecidableEq, Repr

/-! ### Port Relief Controller -/

/-- The stall action of a port. -/
inductive StallAction where
  | cooldown | disarm
deriving DecidableEq, Repr

/-- Port configuration (Table 6-1). -/
structure PortConfig where
  program  : ProgNo
  levelSet : Fin 4
  lw       : Nat
  ld       : Nat
  td       : Nat
  fanIn    : Nat
  ts       : Nat
  tdr      : Nat
  tc       : Nat
  stall    : StallAction
deriving DecidableEq, Repr

/-- Port states of Table 6-2. -/
inductive PortState where
  | disarmed | idle | watch | relief | paused | drain | cooldown
deriving DecidableEq, Repr

/-- Episode origins. -/
inductive Origin where
  | auto | manual
deriving DecidableEq, Repr

/-- Episode outcomes of Table 6-4. -/
inductive EpisodeOutcome where
  | completed | drainStall | stale | aborted | disarmed | fault | linkStop | linkReset
deriving DecidableEq, Repr

/-- The episode clock of R120: the microseconds counted so far, and since when it has been counting
on. -/
structure EpisodeClock where
  counted : Nat
  since   : Option Nat
deriving DecidableEq, Repr

/-- The episode record of a port: the running episode, or the last one ended (R86, R95, R102).
Number 0 stands for no episode since device reset. -/
structure Episode where
  number        : Nat
  origin        : Origin
  program       : ProgNo
  /-- None while the episode runs (and before the first). -/
  outcome       : Option EpisodeOutcome
  openTime      : BitVec 32
  clock         : EpisodeClock
  stepIndex     : Nat
  stepsEntered  : Nat
  stepsByGuard  : Nat
  admissions    : Nat
  overdrafts    : Nat
  bypassed      : Nat
  ungated       : Nat
  completed     : Nat
  endedHeld     : Nat
  credited      : Nat
  standbyDiscarded : Bool
deriving DecidableEq, Repr

/-- PRC state of one port. -/
structure PrcPort where
  config    : PortConfig
  state     : PortState
  qualified : Bool
  debounce  : Timer
  stale     : Timer
  guard     : Timer
  drain     : Timer
  cooldown  : Timer
  episode   : Episode
  standby   : Option ProgNo
deriving DecidableEq, Repr

/-- Port Relief Controller (PRC): the ports, and the device's episode number counter. -/
structure Prc where
  port           : Vector PrcPort 48
  episodeCounter : Nat
deriving DecidableEq, Repr

/-! ### Admission Unit and Credit Unit -/

/-- The two collections of a port (Table 8-1), as slots: the wait queue head first, and the admitted
set oldest admission first. -/
structure AduPort where
  waitQ    : List Slot
  admitted : List Slot
deriving DecidableEq, Repr

/-- Admission Unit (ADU): the collections and the three counters of R139. -/
structure Adu where
  port      : Vector AduPort 48
  shortages : Nat
  bypasses  : Nat
  ignored   : Nat
deriving DecidableEq, Repr

/-- Credit of one port: the episode allowance A and the step credit S (R156). -/
structure CruPort where
  a : Nat
  s : Nat
deriving DecidableEq, Repr

/-- Credit Unit (CRU): A and S of each port, and the device's credit-overflow counter. -/
structure Cru where
  port     : Vector CruPort 48
  overflow : Nat
deriving DecidableEq, Repr

/-! ### Gate Pool Manager -/

/-- Gate modes (Table 13-4). -/
inductive GateMode where
  | closed | shaped | opened | free
deriving DecidableEq, Repr

/-- The key of a responder entry: flow hash and victim port (R38). -/
structure Key where
  hash : BitVec 32
  port : Port
deriving DecidableEq, Repr

/-- A gate record (Table 9-1). A gate is BOUND when `bound` is present and FREE otherwise; its pending
flag is its membership of the pending-order FIFO (R147). -/
structure Gate where
  epoch      : BitVec 4
  bound      : Option Key
  mode       : GateMode
  divisor    : Nat
  res        : Resolution
  pendingAdd : Nat
  lastAdd    : BitVec 8
deriving DecidableEq, Repr

/-- Gate Pool Manager (GPM): gate records, free list, pending-order FIFO and the counters of R152. -/
structure Gpm where
  gates      : Vector Gate 1024
  free       : List GateNo
  fifo       : List GateNo
  binds      : Nat
  frees      : Nat
  validSpent : Nat
  validHold  : Nat
  staleReports : Nat
deriving DecidableEq, Repr

/-! ### Episode Record and Notice unit -/

/-- An episode summary (Table 11-1). -/
structure Summary where
  number       : Nat
  port         : Port
  program      : ProgNo
  origin       : Origin
  outcome      : EpisodeOutcome
  openTime     : BitVec 32
  clock        : Nat
  peak         : Nat
  admissions   : Nat
  overdrafts   : Nat
  bypassed     : Nat
  ungated      : Nat
  completed    : Nat
  endedHeld    : Nat
  credited     : Nat
  stepsEntered : Nat
  stepsByGuard : Nat
  standbyDiscarded : Bool
deriving DecidableEq, Repr

/-- Notice classes of Table 11-2. -/
inductive NoticeClass where
  | episodeOpen | episodeStep | episodeEnd | drainStall | telemetryStale | gateShortage | bypass
  | tableFull | creditOverflow | linkState | linkFault | recordError | portDisarmed | standbyStart
  | lineError
deriving DecidableEq, Repr

/-- An entry of the notice pending set (R174); no scope port means device scope. -/
structure Notice where
  cls     : NoticeClass
  scope   : Option Port
  level   : Nat
  /-- The repeat count, 1 to 255. -/
  count   : Nat
  episode : Nat
  value   : Nat
  time    : BitVec 32
deriving DecidableEq, Repr

/-- Kinds of fabric fault (Table 11-4). -/
inductive FaultKind where
  | malformed | sequence | recordKind | portRange | gateRange | epochRange
deriving DecidableEq, Repr

/-- A filled fault snapshot (Table 11-4). -/
structure FaultSnapshot where
  kind  : FaultKind
  seq   : BitVec 16
  /-- Record index 0 to 31, or 32 for the frame as a whole. -/
  index : Nat
  time  : BitVec 32
  later : Nat
deriving DecidableEq, Repr

/-- Episode Record and Notice unit (ERN). The pending set stands in rising order of class and scope. -/
structure Ern where
  history    : List Summary
  written    : Nat
  dropped    : Nat
  levels     : Vector Nat 15
  pendingSet : List Notice
  sent       : Nat
  coalesced  : Nat
  suppressed : Nat
  fault      : Option FaultSnapshot
deriving DecidableEq, Repr

/-! ### Control Line Controller -/

/-- The control receiver (R181): hunting, or reading with the bytes received after the start byte. -/
inductive CtlRx where
  | hunting
  | reading (bytes : List Byte)
deriving DecidableEq, Repr

/-- A request in the request queue (R184), and a reply in the reply queue (R186): kind, tag, body. -/
structure CtlFrame where
  kind : Byte
  tag  : Byte
  body : List Byte
deriving DecidableEq, Repr

/-- The counters of the CLC (R183 to R186, R189). The rules give them no width and no behaviour at the largest value:
that they hold 32 bits and saturate is the model's choice (DESIGN CHOICE, unsafe, notes/assumptions/21.md). -/
structure ClcCounters where
  received      : Nat
  skipped       : Nat
  gapErrors     : Nat
  crcErrors     : Nat
  lengthErrors  : Nat
  framingErrors : Nat
  overruns      : Nat
  composed      : Nat
  sent          : Nat
deriving DecidableEq, Repr

/-- Control Line Controller (CLC). -/
structure Clc where
  rx         : CtlRx
  /-- The inter-byte timer. -/
  gap        : Timer
  requests   : List CtlFrame
  replies    : List CtlFrame
  /-- The frame on the line while the transmitter sends one; none when it is free. -/
  tx         : Option (List Byte)
  /-- A RESET_DEVICE has been taken and its reset has not begun (R191). -/
  resetAsked : Bool
  ctr        : ClcCounters
deriving DecidableEq, Repr

/-! ### The whole part -/

/-- The state of the part, block by block, with the queue of waiting commands. `free` is the model's
own counter: it numbers the free values drawn so far (notes/assumptions/2.md). -/
structure State where
  phase   : ResetPhase
  tmb     : Tmb
  flc     : Flc
  oev     : Oev
  rtb     : Rtb
  cmp     : Cmp
  pgs     : Pgs
  prc     : Prc
  adu     : Adu
  cru     : Cru
  gpm     : Gpm
  ern     : Ern
  clc     : Clc
  free    : Nat
  pending : List Instr
deriving DecidableEq, Repr

/-! ### Values after device reset -/

/-- FLC after device reset (R18, R19; the fault limit also R8). -/
def Flc.reset : Flc where
  link := .down
  rx := .hunting
  expected := 0
  errCount := 0
  faultLimit := 8
  outSeq := 0
  idle := .stopped
  tx := none
  handed := []
  ctr := ⟨0, 0, 0, 0, 0, 0, 0, 0⟩

/-- One port of the OEV after device reset (R37). -/
def OevPort.reset : OevPort := ⟨false, 0, 0, 0, 0, 0, 0, 0⟩

/-- Thresholds Ti = 4,096 × i (R28). -/
def Oev.resetSet : Vector Nat 15 :=
  #v[4096, 8192, 12288, 16384, 20480, 24576, 28672, 32768, 36864, 40960, 45056, 49152, 53248, 57344,
     61440]

/-- OEV after device reset (R37). -/
def Oev.reset : Oev where
  sets := Vector.replicate 4 Oev.resetSet
  port := Vector.replicate 48 OevPort.reset

/-- RTB after device reset (R59). -/
def Rtb.reset : Rtb where
  table := []
  arrival := Vector.replicate 48 []
  ageLimit := 20000
  ctr := ⟨0, 0, 0, 0, 0, 0, 0, 0⟩

/-- The class parameters of every window and of the default class after device reset (R70). -/
def ClassParams.reset : ClassParams := ⟨true, 3, 65536⟩

/-- A window after device reset (R70). -/
def Window.reset : Window := ⟨false, 0, 0, .broad, ClassParams.reset, 0⟩

/-- CMP after device reset (R70). -/
def Cmp.reset : Cmp := ⟨Vector.replicate 8 Window.reset, ClassParams.reset, 0⟩

/-- Step 0 of the factory program (Table 5-2). -/
def Step.factory0 : Step := ⟨31, .coarse, 4, 1, 2, 13, 0, .level, 6, 2000⟩

/-- Step 1 of the factory program (Table 5-2). -/
def Step.factory1 : Step := ⟨15, .coarse, 8, 1, 1, 14, 0, .queueEmpty, 0, 4000⟩

/-- PGS after device reset (R82). -/
def Pgs.reset : Pgs := ⟨(Vector.replicate 16 []).set 0 [Step.factory0, Step.factory1]⟩

/-- Port configuration after device reset (Table 6-1, R84). -/
def PortConfig.reset : PortConfig := ⟨0, 0, 8, 2, 50, 8, 100, 2000, 500, .cooldown⟩

/-- The episode record before the first episode (R86, R108): all zero. -/
def Episode.reset : Episode :=
  ⟨0, .auto, 0, none, 0, ⟨0, none⟩, 0, 0, 0, 0, 0, 0, 0, 0, 0, 0, false⟩

/-- One port of the PRC after device reset (R108). -/
def PrcPort.reset : PrcPort where
  config := PortConfig.reset
  state := .disarmed
  qualified := false
  debounce := .stopped
  stale := .stopped
  guard := .stopped
  drain := .stopped
  cooldown := .stopped
  episode := Episode.reset
  standby := none

/-- PRC after device reset (R108). -/
def Prc.reset : Prc := ⟨Vector.replicate 48 PrcPort.reset, 0⟩

/-- ADU after device reset (R139). -/
def Adu.reset : Adu := ⟨Vector.replicate 48 ⟨[], []⟩, 0, 0, 0⟩

/-- CRU after device reset (R156). -/
def Cru.reset : Cru := ⟨Vector.replicate 48 ⟨0, 0⟩, 0⟩

/-- A gate after device reset (R155). -/
def Gate.reset : Gate := ⟨0, none, .free, 0, .coarse, 0, 0⟩

/-- GPM after device reset (R155): the free list holds gates 0 to 1023 in ascending order. -/
def Gpm.reset : Gpm := ⟨Vector.replicate 1024 Gate.reset, List.finRange 1024, [], 0, 0, 0, 0, 0⟩

/-- Default notice levels (Table 11-3). -/
def Ern.resetLevels : Vector Nat 15 := #v[3, 0, 4, 12, 12, 8, 6, 6, 2, 10, 15, 9, 13, 3, 5]

/-- ERN after device reset (R180). -/
def Ern.reset : Ern := ⟨[], 0, 0, Ern.resetLevels, [], 0, 0, 0, none⟩

/-- CLC after device reset (R193). -/
def Clc.reset : Clc where
  rx := .hunting
  gap := .stopped
  requests := []
  replies := []
  tx := none
  resetAsked := false
  ctr := ⟨0, 0, 0, 0, 0, 0, 0, 0, 0⟩

/-- The part right after a device reset has completed: every block at its reset values and the time
base at 0 (R20). The model's free-value counter starts at 0, and no command waits. -/
def State.reset : State where
  phase := .running
  tmb := ⟨0⟩
  flc := Flc.reset
  oev := Oev.reset
  rtb := Rtb.reset
  cmp := Cmp.reset
  pgs := Pgs.reset
  prc := Prc.reset
  adu := Adu.reset
  cru := Cru.reset
  gpm := Gpm.reset
  ern := Ern.reset
  clc := Clc.reset
  free := 0
  pending := []

end Sys2Proof.Machine
end

