-- ==== Sys2Proof/Machine/Bytes.lean ====
section
/-! DEFINITION. Bytes on the two links: most-significant byte first (00_scope.md section 5), the two
CRCs of R1 and R181, and the frames of Tables 13-1 and 13-5. -/

namespace Sys2Proof.Machine

/-- The low `n` bytes of a number, most-significant byte first. -/
def be : Nat → Nat → List Byte
  | 0, _ => []
  | n + 1, v => BitVec.ofNat 8 (v >>> (8 * n)) :: be n v

/-- The number that a run of bytes carries, most-significant byte first. -/
def readBE (l : List Byte) : Nat := l.foldl (fun a b => a * 256 + b.toNat) 0

/-- The number carried by the `n` bytes from offset `off` of a frame, record or body. -/
def fieldAt (l : List Byte) (off n : Nat) : Nat := readBE ((l.drop off).take n)

/-- One byte into the CRC-32 register, most-significant bit first, not reflected (R1). -/
def crc32Byte (c : BitVec 32) (b : Byte) : BitVec 32 :=
  (List.range 8).foldl (fun c _ => if c.msb then (c <<< 1) ^^^ 0x04C11DB7#32 else c <<< 1)
    (c ^^^ (b.setWidth 32 <<< 24))

/-- The CRC-32 of R1: initial value all ones, final exclusive-or all ones. -/
def crc32 (l : List Byte) : BitVec 32 := (l.foldl crc32Byte 0xFFFFFFFF#32) ^^^ 0xFFFFFFFF#32

/-- One byte into the CRC-16 register, most-significant bit first, not reflected (R181). -/
def crc16Byte (c : BitVec 16) (b : Byte) : BitVec 16 :=
  (List.range 8).foldl (fun c _ => if c.msb then (c <<< 1) ^^^ 0x1021#16 else c <<< 1)
    (c ^^^ (b.setWidth 16 <<< 8))

/-- The CRC-16 of R181: initial value 0xFFFF, no final exclusive-or. -/
def crc16 (l : List Byte) : BitVec 16 := l.foldl crc16Byte 0xFFFF#16

/-- Header and records of a fabric frame, the bytes its CRC covers (Table 13-1). -/
def fabricCovered (seq : BitVec 16) (records : List (List Byte)) : List Byte :=
  be 1 records.length ++ be 1 1 ++ be 2 seq.toNat ++ records.flatten

/-- A fabric frame on the lane: sync word, header, records, CRC-32 (Table 13-1). -/
def fabricFrame (seq : BitVec 16) (records : List (List Byte)) : List LaneSym :=
  .sync :: (fabricCovered seq records ++ be 4 (crc32 (fabricCovered seq records)).toNat).map .data

/-- Length, kind, tag and body of a control frame, the bytes its CRC covers (Table 13-5). -/
def ctlCovered (kind tag : Byte) (body : List Byte) : List Byte :=
  be 2 (body.length + 2) ++ kind :: tag :: body

/-- A control frame on the line: start byte, length, kind, tag, body, CRC-16 (Table 13-5). -/
def ctlFrame (kind tag : Byte) (body : List Byte) : List Byte :=
  0xC5#8 :: (ctlCovered kind tag body ++ be 2 (crc16 (ctlCovered kind tag body)).toNat)

/-- A record of `n` bytes: the listed bytes, and zero for the bytes its layout does not list
(00_scope.md section 5). -/
def padTo (n : Nat) (l : List Byte) : List Byte := l ++ List.replicate (n - l.length) 0

end Sys2Proof.Machine
end

