-- ==== Sys2Proof/Machine/Flags.lean ====
section
/-! DEFINITION. The codes and flag bits that the part puts into frames, records and notices: the state
codes of Tables 1-2, 3-2, 6-2 and 6-4, the notice classes of Table 11-2, the status codes of
Table 12-1, and the record flag bytes of section 13.7. -/

namespace Sys2Proof.Machine

/-- Link state codes (Table 1-2). -/
def LinkState.code : LinkState → Nat
  | .down => 0 | .syncing => 1 | .up => 2 | .faulted => 3 | .stopping => 4

/-- Port state codes (Table 6-2). -/
def PortState.code : PortState → Nat
  | .disarmed => 0 | .idle => 1 | .watch => 2 | .relief => 3 | .paused => 4 | .drain => 5
  | .cooldown => 6

/-- Outcome codes (Table 6-4). -/
def EpisodeOutcome.code : EpisodeOutcome → Nat
  | .completed => 0 | .drainStall => 1 | .stale => 2 | .aborted => 3 | .disarmed => 4
  | .fault => 5 | .linkStop => 6 | .linkReset => 7

/-- Origin codes (Table 11-1). -/
def Origin.code : Origin → Nat
  | .auto => 0 | .manual => 1

/-- Stall action codes (Table 6-1, note 2). -/
def StallAction.code : StallAction → Nat
  | .cooldown => 0 | .disarm => 1

/-- Rank codes (section 4.3). -/
def Rank.code : Rank → Nat
  | .pinned => 0 | .broad => 1

/-- Resolution codes (Table 5-1). -/
def Resolution.code : Resolution → Nat
  | .coarse => 0 | .fine => 1

/-- Condition kind codes (Table 5-1). -/
def CondKind.code : CondKind → Nat
  | .budget => 0 | .level => 1 | .queueEmpty => 2 | .guardOnly => 3

/-- Gate mode codes (Table 13-4). -/
def GateMode.code : GateMode → Nat
  | .closed => 0 | .shaped => 1 | .opened => 2 | .free => 3

/-- Entry state codes (Table 13-10). -/
def EntryState.code : EntryState → Nat
  | .seen => 0 | .waiting => 1 | .admitted => 2 | .released => 3 | .bypassed => 4 | .ungated => 5

/-- Fault kind codes (Table 11-4). -/
def FaultKind.code : FaultKind → Nat
  | .malformed => 0 | .sequence => 1 | .recordKind => 2 | .portRange => 3 | .gateRange => 4
  | .epochRange => 5

/-- Notice class numbers (Table 11-2). -/
def NoticeClass.code : NoticeClass → Fin 15
  | .episodeOpen => 0 | .episodeStep => 1 | .episodeEnd => 2 | .drainStall => 3
  | .telemetryStale => 4 | .gateShortage => 5 | .bypass => 6 | .tableFull => 7
  | .creditOverflow => 8 | .linkState => 9 | .linkFault => 10 | .recordError => 11
  | .portDisarmed => 12 | .standbyStart => 13 | .lineError => 14

/-- Reply status codes (Table 12-1). -/
inductive Status where
  | ok | queued | busy | format | unknown | range | order | overlap | align | inUse | noRoom | empty
  | state | notArmed
deriving DecidableEq, Repr

/-- Status bytes (Table 12-1). -/
def statusByte : Status → Byte
  | .ok => 0 | .queued => 1 | .busy => 2 | .format => 3 | .unknown => 4 | .range => 5 | .order => 6
  | .overlap => 7 | .align => 8 | .inUse => 9 | .noRoom => 10 | .empty => 11 | .state => 12
  | .notArmed => 13

/-- Line error causes (R182, R184). -/
inductive LineCause where
  | gap | crc | length | framing | overrun
deriving DecidableEq, Repr

/-- Line error cause codes (R182, R183). -/
def LineCause.code : LineCause → Nat
  | .gap => 1 | .crc => 2 | .length => 3 | .framing => 4 | .overrun => 5

/-- A flag as the number 0 or 1. -/
def bit (b : Bool) : Nat := if b then 1 else 0

/-- The flags byte of an occupied RESPONDER record (Table 13-10). -/
def entryFlags (e : Entry) : Nat :=
  1 + 2 * bit e.eligible + 4 * bit e.gate.isSome + 8 * bit e.dry.isSome + 16 * bit (e.dry == some true)
    + 32 * bit e.overdraft.isSome + 64 * bit (e.overdraft == some true) + 128 * bit e.lastHeld.isSome

/-- The value that the top bit of a notice value marks: 128 added when the flag holds. -/
def mark128 (b : Bool) : Nat := if b then 128 else 0

end Sys2Proof.Machine
end

