-- ==== Sys2Proof/Machine/Ops.lean ====
section
/-! DEFINITION. Operations that every block uses: saturating counters, timers and the episode clock
(R20 to R23, R120), one port's share of a block, the entries of the Responder Table, raising a notice
occurrence (R174), offering a fabric fault (R178) and changing the link state (R12). -/

namespace Sys2Proof.Machine

/-! ### Numbers -/

/-- A 32-bit saturating counter stops at its largest value (00_scope.md section 5). -/
def sat32 (n : Nat) : Nat := min n 4294967295

/-- One element of a block's table changed. -/
def modAt {α : Type} {n : Nat} (v : Vector α n) (i : Fin n) (f : α → α) : Vector α n :=
  v.set i.val (f v[i]) i.isLt

/-! ### Time -/

/-- The unwrapped count of microseconds since the reset completed. -/
def State.now (s : State) : Nat := s.tmb.micros

/-- The TMB counter of R20, which is also the time stamp of the present moment. -/
def State.stamp (s : State) : BitVec 32 := BitVec.ofNat 32 s.tmb.micros

/-- A start of a timer at `now` (R21). -/
def Timer.startAt (now setting : Nat) : Timer := .running now setting

/-- A timer is due when its setting has run out (R21); a frozen or stopped timer never is. -/
def Timer.due (now : Nat) : Timer → Bool
  | .running start setting => decide (start + setting ≤ now)
  | _ => false

/-- A timer runs or is frozen, that is, it has not stopped. -/
def Timer.active : Timer → Bool
  | .stopped => false
  | _ => true

/-- Freezing keeps the elapsed time (R22). -/
def Timer.freeze (now : Nat) : Timer → Timer
  | .running start setting => .frozen (now - start) setting
  | t => t

/-- Thawing starts the timer with what was left of its setting (R22). -/
def Timer.thaw (now : Nat) : Timer → Timer
  | .frozen elapsed setting => .running now (setting - elapsed)
  | t => t

/-- The episode clock as it reads at `now`, saturating (R120). -/
def EpisodeClock.read (now : Nat) (c : EpisodeClock) : Nat :=
  match c.since with
  | none => c.counted
  | some t => sat32 (c.counted + (now - t))

/-- The episode clock stopped or frozen at `now`. -/
def EpisodeClock.halt (now : Nat) (c : EpisodeClock) : EpisodeClock := ⟨c.read now, none⟩

/-- The episode clock counting on from `now`. -/
def EpisodeClock.go (now : Nat) (c : EpisodeClock) : EpisodeClock := ⟨c.counted, some now⟩

/-! ### One port's share of a block -/

/-- PRC state of a port. -/
def State.prcAt (s : State) (p : Port) : PrcPort := s.prc.port[p]

/-- PRC state of a port changed. -/
def State.modPrc (p : Port) (f : PrcPort → PrcPort) (s : State) : State :=
  { s with prc := { s.prc with port := modAt s.prc.port p f } }

/-- The episode record of a port changed. -/
def State.modEpisode (p : Port) (f : Episode → Episode) (s : State) : State :=
  s.modPrc p fun q => { q with episode := f q.episode }

/-- OEV state of a port. -/
def State.oevAt (s : State) (p : Port) : OevPort := s.oev.port[p]

/-- OEV state of a port changed. -/
def State.modOev (p : Port) (f : OevPort → OevPort) (s : State) : State :=
  { s with oev := { s.oev with port := modAt s.oev.port p f } }

/-- ADU collections of a port. -/
def State.aduAt (s : State) (p : Port) : AduPort := s.adu.port[p]

/-- ADU collections of a port changed. -/
def State.modAdu (p : Port) (f : AduPort → AduPort) (s : State) : State :=
  { s with adu := { s.adu with port := modAt s.adu.port p f } }

/-- Credit of a port. -/
def State.cruAt (s : State) (p : Port) : CruPort := s.cru.port[p]

/-- Credit of a port changed. -/
def State.modCru (p : Port) (f : CruPort → CruPort) (s : State) : State :=
  { s with cru := { s.cru with port := modAt s.cru.port p f } }

/-! ### Entries of the Responder Table -/

/-- The entry in a slot, if the slot is occupied. -/
def Rtb.entry? (r : Rtb) (i : Slot) : Option Entry :=
  (r.table.find? fun x => x.1 == i).map (·.2)

/-- The occupied slot and the entry with a key (R38). -/
def Rtb.lookup (r : Rtb) (hash : BitVec 32) (port : Port) : Option (Slot × Entry) :=
  r.table.find? fun x => x.2.hash == hash && x.2.port == port

/-- The entry in a slot changed; an empty slot stays empty. -/
def Rtb.modEntry (i : Slot) (f : Entry → Entry) (r : Rtb) : Rtb :=
  { r with table := r.table.map fun x => if x.1 = i then (x.1, f x.2) else x }

/-- The entry in a slot changed, in the whole state. -/
def State.modEntry (i : Slot) (f : Entry → Entry) (s : State) : State :=
  { s with rtb := s.rtb.modEntry i f }

/-- The fan-in of a port: its eligible entries in the table, in any state (R51). -/
def State.fanIn (s : State) (p : Port) : Nat :=
  s.rtb.table.countP fun x => x.2.port == p && x.2.eligible

/-! ### Notices -/

/-- The place of an entry in the pending set: by class, then by port, device scope after every
port. -/
def Notice.key (n : Notice) : Nat :=
  n.cls.code.val * 64 + (match n.scope with | some p => p.val | none => 63)

/-- An entry put into its place in the pending set. -/
def insertNotice (n : Notice) : List Notice → List Notice
  | [] => [n]
  | m :: l => if n.key < m.key then n :: m :: l else m :: insertNotice n l

/-- The level in force for a class (R173). -/
def Ern.level (e : Ern) (c : NoticeClass) : Nat := e.levels[c.code]

/-- An occurrence meets the pending set (R174): it is suppressed at level 0, merged into the entry of
its class and scope, or entered. -/
def Ern.raise (cls : NoticeClass) (scope : Option Port) (episode value : Nat) (time : BitVec 32)
    (e : Ern) : Ern :=
  if e.level cls = 0 then { e with suppressed := sat32 (e.suppressed + 1) }
  else if e.pendingSet.any fun n => n.cls == cls && n.scope == scope then
    { e with
      pendingSet := e.pendingSet.map fun n =>
        if n.cls = cls ∧ n.scope = scope then
          ⟨cls, scope, e.level cls, min 255 (n.count + 1), episode, value, time⟩
        else n
      coalesced := sat32 (e.coalesced + 1) }
  else { e with pendingSet := insertNotice ⟨cls, scope, e.level cls, 1, episode, value, time⟩ e.pendingSet }

/-- An occurrence raised at the present moment. -/
def State.raise (cls : NoticeClass) (scope : Option Port) (episode value : Nat) (s : State) : State :=
  { s with ern := s.ern.raise cls scope episode value s.stamp }

/-- A port-scope occurrence that carries the number of the port's episode. -/
def State.raiseEpisode (cls : NoticeClass) (p : Port) (value : Nat) (s : State) : State :=
  s.raise cls (some p) (s.prcAt p).episode.number value

/-- A device-scope occurrence, with episode number 0. -/
def State.raiseDevice (cls : NoticeClass) (value : Nat) (s : State) : State :=
  s.raise cls none 0 value

/-! ### The fault snapshot and the link state -/

/-- A fabric fault offered to the snapshot (R178): the first fills it, a later one only counts. -/
def Ern.offer (kind : FaultKind) (seq : BitVec 16) (index : Nat) (time : BitVec 32) (e : Ern) : Ern :=
  match e.fault with
  | none => { e with fault := some ⟨kind, seq, index, time, 0⟩ }
  | some f => { e with fault := some { f with later := sat32 (f.later + 1) } }

/-- A fabric fault offered at the present moment. -/
def State.offer (kind : FaultKind) (seq : BitVec 16) (index : Nat) (s : State) : State :=
  { s with ern := s.ern.offer kind seq index s.stamp }

/-- A change of the link state and its LINK_STATE notice (R12). -/
def State.setLink (l : LinkState) (s : State) : State :=
  ({ s with flc := { s.flc with link := l } } : State).raiseDevice .linkState l.code

end Sys2Proof.Machine
end

