-- ==== Sys2Proof/Machine/Operands.lean ====
section
/-! DEFINITION. Reading operands: the fields of an inbound fabric record with the checks of R13
(Table 13-3, R194), and the fields of every request body with the range checks of its owning rule
(Table 13-7, Table 13-9). -/

namespace Sys2Proof.Machine

/-! ### Inbound fabric records -/

/-- The gate and epoch checks of a record, the gate first (R13, items 3 and 4). -/
def readGateRef (gate epoch : Nat) : Except FaultKind GateRef :=
  if h : gate < 1024 then
    if epoch < 16 then .ok ⟨⟨gate, h⟩, BitVec.ofNat 4 epoch⟩ else .error .epochRange
  else .error .gateRange

/-- The port check of a record (R13, item 2). -/
def readPort (port : Nat) : Except FaultKind Port :=
  if h : port < 48 then .ok ⟨port, h⟩ else .error .portRange

/-- One inbound record: its fields at the offsets of Table 13-3, or the first check of R13 that it
fails. Bytes and bits outside those fields are ignored (R194). -/
def readRecord (r : List Byte) : Except FaultKind InRecord :=
  match fieldAt r 0 1 with
  | 0x01 =>
    match readPort (fieldAt r 1 1) with
    | .error k => .error k
    | .ok p =>
      .ok (.occupancy p (BitVec.ofNat 16 (fieldAt r 2 2)) (BitVec.ofNat 16 (fieldAt r 4 2))
        (BitVec.ofNat 32 (fieldAt r 6 4)))
  | 0x02 =>
    match readPort (fieldAt r 1 1) with
    | .error k => .error k
    | .ok p =>
      .ok (.sighting (BitVec.ofNat 32 (fieldAt r 2 4)) p (BitVec.ofNat 6 (fieldAt r 6 1))
        (BitVec.ofNat 16 (fieldAt r 7 2)))
  | 0x03 =>
    match readPort (fieldAt r 1 1) with
    | .error k => .error k
    | .ok p =>
      if fieldAt r 6 1 % 2 = 1 then
        match readGateRef (fieldAt r 8 2) (fieldAt r 7 1) with
        | .error k => .error k
        | .ok g =>
          .ok (.flowEnd (BitVec.ofNat 32 (fieldAt r 2 4)) p (some g) (BitVec.ofNat 24 (fieldAt r 10 3)))
      else
        .ok (.flowEnd (BitVec.ofNat 32 (fieldAt r 2 4)) p none (BitVec.ofNat 24 (fieldAt r 10 3)))
  | 0x04 =>
    match readGateRef (fieldAt r 2 2) (fieldAt r 4 1) with
    | .error k => .error k
    | .ok g =>
      .ok (.gateSpent g.gate g.epoch (BitVec.ofNat 8 (fieldAt r 5 1)) (BitVec.ofNat 32 (fieldAt r 6 4)))
  | 0x05 =>
    match readGateRef (fieldAt r 2 2) (fieldAt r 4 1) with
    | .error k => .error k
    | .ok g =>
      .ok (.holdPressure g.gate g.epoch (BitVec.ofNat 32 (fieldAt r 6 4))
        (BitVec.ofNat 24 (fieldAt r 10 3)))
  | _ => .error .recordKind

/-- The records of a frame: its bytes cut into runs of 16. -/
def cutRecords : Nat → List Byte → List (List Byte)
  | 0, _ => []
  | n + 1, l => l.take 16 :: cutRecords n (l.drop 16)

/-! ### Request bodies -/

/-- The port a request names, if it is in range (R85). -/
def bodyPort (body : List Byte) : Option Port :=
  if h : fieldAt body 0 1 < 48 then some ⟨fieldAt body 0 1, h⟩ else none

/-- A program number, if it is in range. -/
def programNo (n : Nat) : Option ProgNo := if h : n < 16 then some ⟨n, h⟩ else none

/-- The fields of SET_PORT, checked in the order of Table 6-1 and then as a pair; a refusal gives the
position of the field (R85). A Ts of 0 is stored as 1. -/
def readPortConfig (b : List Byte) : Except Nat PortConfig :=
  if 15 < fieldAt b 1 1 then .error 1
  else if 3 < fieldAt b 2 1 then .error 2
  else if fieldAt b 3 1 = 0 ∨ 15 < fieldAt b 3 1 then .error 3
  else if 14 < fieldAt b 4 1 then .error 4
  else if fieldAt b 7 1 = 0 then .error 6
  else if fieldAt b 10 4 = 0 ∨ 16777215 < fieldAt b 10 4 then .error 8
  else if 16777215 < fieldAt b 14 4 then .error 9
  else if 1 < fieldAt b 18 1 then .error 10
  else if fieldAt b 3 1 ≤ fieldAt b 4 1 then .error 4
  else .ok {
    program := Fin.ofNat 16 (fieldAt b 1 1)
    levelSet := Fin.ofNat 4 (fieldAt b 2 1)
    lw := fieldAt b 3 1
    ld := fieldAt b 4 1
    td := fieldAt b 5 2
    fanIn := fieldAt b 7 1
    ts := max 1 (fieldAt b 8 2)
    tdr := fieldAt b 10 4
    tc := fieldAt b 14 4
    stall := if fieldAt b 18 1 = 0 then .cooldown else .disarm }

/-- The fifteen thresholds of SET_LEVELS (Table 13-7). -/
def readThresholds (b : List Byte) : Vector Nat 15 := Vector.ofFn fun i => fieldAt b (1 + 2 * i.val) 2

/-- The lowest i from 2 to 15 for which Ti is below Ti-1 (R33). -/
def firstDescent (t : Vector Nat 15) : Option Nat :=
  (List.range 14).find? (fun j => decide (t[j + 1]! < t[j]!)) |>.map (· + 2)

/-- A cap as stored: rounded down to a multiple of 64, then brought into 1,024 to 1,048,576 (R61). -/
def storedCap (n : Nat) : Nat := min 1048576 (max 1024 (n / 64 * 64))

/-- The fields of SET_WINDOW with the RANGE checks of R64 in their order; a refusal gives the field
code. -/
def readWindow (b : List Byte) : Except Nat (Fin 8 × Window) :=
  if 7 < fieldAt b 0 1 then .error 0
  else if 15 < fieldAt b 4 1 then .error 1
  else if 3 < fieldAt b 7 1 then .error 2
  else if 1 < fieldAt b 1 1 then .error 3
  else if 1 < fieldAt b 5 1 then .error 4
  else if 1 < fieldAt b 6 1 then .error 5
  else .ok (Fin.ofNat 8 (fieldAt b 0 1), {
    enable := fieldAt b 1 1 == 1
    base := BitVec.ofNat 16 (fieldAt b 2 2)
    size := Fin.ofNat 16 (fieldAt b 4 1)
    rank := if fieldAt b 5 1 = 0 then .pinned else .broad
    params := ⟨fieldAt b 6 1 == 1, Fin.ofNat 4 (fieldAt b 7 1), storedCap (fieldAt b 8 4)⟩
    hits := 0 })

/-- The fields of SET_DEFAULT_CLASS with its RANGE checks in their order (R68). -/
def readDefaultClass (b : List Byte) : Except Nat ClassParams :=
  if 1 < fieldAt b 0 1 then .error 0
  else if 3 < fieldAt b 1 1 then .error 1
  else .ok ⟨fieldAt b 0 1 == 1, Fin.ofNat 4 (fieldAt b 1 1), storedCap (fieldAt b 2 4)⟩

/-- One step record, with items 3 to 13 of R76 in their order; a refusal gives the field code. The
transfer level of a step whose kind is not LEVEL is stored as 0 (R73). -/
def readStep (b : List Byte) : Except Nat Step :=
  let res := fieldAt b 2 1 / 16
  let kind := fieldAt b 2 1 % 16
  if 4095 < fieldAt b 0 2 then .error 2
  else if 1 < res then .error 3
  else if fieldAt b 3 1 = 0 ∨ 64 < fieldAt b 3 1 then .error 4
  else if fieldAt b 4 1 = 0 then .error 5
  else if fieldAt b 5 1 = 0 then .error 6
  else if fieldAt b 6 1 = 0 ∨ 15 < fieldAt b 6 1 then .error 7
  else if 3 < kind then .error 8
  else if kind = 1 ∧ 15 < fieldAt b 7 1 then .error 9
  else if 16777215 < fieldAt b 12 4 then .error 10
  else if kind = 0 ∧ fieldAt b 8 4 = 0 then .error 11
  else if kind = 3 ∧ fieldAt b 12 4 = 0 then .error 12
  else .ok {
    pt := fieldAt b 0 2
    res := if res = 0 then .coarse else .fine
    width := fieldAt b 3 1
    fa := fieldAt b 4 1
    fb := fieldAt b 5 1
    lc := fieldAt b 6 1
    budget := fieldAt b 8 4
    kind := match kind with | 0 => .budget | 1 => .level | 2 => .queueEmpty | _ => .guardOnly
    lt := if kind = 1 then fieldAt b 7 1 else 0
    guard := fieldAt b 12 4 }

/-- The steps of WRITE_PROGRAM from step `i` on; a refusal gives the lowest failing step and its field
code (R76). -/
def readSteps (i : Nat) : List (List Byte) → Except (Nat × Nat) (List Step)
  | [] => .ok []
  | r :: rs =>
    match readStep r with
    | .error c => .error (i, c)
    | .ok st =>
      match readSteps (i + 1) rs with
      | .error e => .error e
      | .ok sts => .ok (st :: sts)

/-- WRITE_PROGRAM: program, step count and steps, with the RANGE checks of R76; a refusal gives the
step index and the field code. -/
def readProgramBody (b : List Byte) : Except (Nat × Nat) (ProgNo × List Step) :=
  if 15 < fieldAt b 0 1 then .error (255, 0)
  else if 32 < fieldAt b 1 1 then .error (255, 1)
  else
    match readSteps 0 (cutRecords (fieldAt b 1 1) (b.drop 2)) with
    | .error e => .error e
    | .ok sts => .ok (Fin.ofNat 16 (fieldAt b 0 1), sts)

/-- The fifteen levels of SET_NOTICE_LEVELS, or the lowest class whose level is above 15 (R173). -/
def readNoticeLevels (b : List Byte) : Except Nat (Vector Nat 15) :=
  match (List.range 15).find? (fun i => decide (15 < fieldAt b i 1)) with
  | some i => .error i
  | none => .ok (Vector.ofFn fun i => fieldAt b i.val 1)

end Sys2Proof.Machine
end

