-- ==== Sys2Proof/Machine/Gates.lean ====
section
/-! DEFINITION. The Gate Pool Manager: bind, free, wanted state, allowance, the pending-order FIFO, the
composition of Gate Orders, and the checks of gate reports (09_gate_pool_and_gate_orders.md). -/

namespace Sys2Proof.Machine

/-! ### The pending-order FIFO and gate records -/

/-- A changed gate enters the FIFO at the tail, or keeps its place if already there (R147). -/
def Gpm.enter (g : GateNo) (m : Gpm) : Gpm :=
  if g ∈ m.fifo then m else { m with fifo := m.fifo ++ [g] }

/-- A gate record. -/
def Gpm.gate (m : Gpm) (g : GateNo) : Gate := m.gates[g]

/-- A gate record changed. -/
def Gpm.modGate (g : GateNo) (f : Gate → Gate) (m : Gpm) : Gpm := { m with gates := modAt m.gates g f }

/-- The record a bind leaves (R142, items 2 to 5). -/
def Gate.bindTo (k : Key) (mode : GateMode) (res : Resolution) (g : Gate) : Gate :=
  ⟨g.epoch + 1, some k, mode, 0, res, 0, 0⟩

/-- The gate at the head of the free list is bound (R142, items 1 to 5, 7 and 8). -/
def Gpm.bind (g : GateNo) (rest : List GateNo) (k : Key) (mode : GateMode) (res : Resolution)
    (m : Gpm) : Gpm :=
  Gpm.enter g { m.modGate g (Gate.bindTo k mode res) with free := rest, binds := sat32 (m.binds + 1) }

/-- The record a free leaves: the epoch and the last sent add number stay (R144). -/
def Gate.freed (g : Gate) : Gate := ⟨g.epoch, none, .free, 0, .coarse, 0, g.lastAdd⟩

/-- A BOUND gate is freed (R144). A gate that is already FREE is never named (R144); naming one changes
nothing. -/
def Gpm.freeGate (g : GateNo) (m : Gpm) : Gpm :=
  if (m.gate g).bound.isNone then m
  else Gpm.enter g { m.modGate g Gate.freed with free := m.free ++ [g], frees := sat32 (m.frees + 1) }

/-- The wanted state of a gate is written; only a change of one of its three fields enters the gate
into the FIFO (R145). -/
def Gpm.want (g : GateNo) (mode : GateMode) (divisor : Nat) (res : Resolution) (m : Gpm) : Gpm :=
  let old := m.gate g
  let m' := m.modGate g fun x => { x with mode := mode, divisor := divisor, res := res }
  if old.mode = mode ∧ old.divisor = divisor ∧ old.res = res then m' else m'.enter g

/-- Release at entry into the drain phase: wanted mode OPEN, and a pending add is not sent (R145). -/
def Gpm.release (g : GateNo) (m : Gpm) : Gpm :=
  (m.want g .opened (m.gate g).divisor (m.gate g).res).modGate g fun x => { x with pendingAdd := 0 }

/-- A grant is added to the pending add of a gate, saturating at 16,777,215, and an add above 0 enters
the gate into the FIFO (R146). -/
def Gpm.addAllowance (g : GateNo) (n : Nat) (m : Gpm) : Gpm :=
  let m' := m.modGate g fun x => { x with pendingAdd := min 16777215 (x.pendingAdd + n) }
  if n = 0 then m' else m'.enter g

/-! ### Binding and freeing for an entry -/

/-- A bind for the entry in a slot (R142), with the entry's gate reference written in the same event;
none when the free list is empty (R143). -/
def bindGate (i : Slot) (mode : GateMode) (res : Resolution) (s : State) : Option State :=
  match s.gpm.free, s.rtb.entry? i with
  | g :: rest, some e =>
    some { s with
      gpm := s.gpm.bind g rest ⟨e.hash, e.port⟩ mode res
      rtb := s.rtb.modEntry i fun x => { x with gate := some ⟨g, (s.gpm.gate g).epoch + 1⟩ } }
  | _, _ => none

/-- The gate held by the entry in a slot, if any, is freed and the entry's reference is removed (R144,
item 3). -/
def freeGateOf (i : Slot) (s : State) : State :=
  match (s.rtb.entry? i).bind (·.gate) with
  | none => s
  | some r =>
    { s with
      gpm := s.gpm.freeGate r.gate
      rtb := s.rtb.modEntry i fun x => { x with gate := none } }

/-- The gate number held by the entry in a slot. -/
def State.gateOf (s : State) (i : Slot) : Option GateNo :=
  (s.rtb.entry? i).bind fun e => e.gate.map (·.gate)

/-- A change of the GPM for the gate held by the entry in a slot; nothing when it holds none. -/
def onGateOf (i : Slot) (f : GateNo → Gpm → Gpm) (s : State) : State :=
  match s.gateOf i with
  | none => s
  | some g => { s with gpm := f g s.gpm }

/-! ### Composing Gate Orders -/

/-- A Gate Order (Table 13-4). -/
structure GateOrder where
  mode      : GateMode
  gate      : GateNo
  epoch     : BitVec 4
  addNumber : BitVec 8
  res       : Resolution
  divisor   : Nat
  add       : Nat
deriving DecidableEq, Repr

/-- The record after its order has been composed: a pending add raises the add number and is sent
(R148). -/
def Gate.taken (g : Gate) : Gate :=
  { g with lastAdd := if g.pendingAdd = 0 then g.lastAdd else g.lastAdd + 1, pendingAdd := 0 }

/-- The order composed from a gate's record (R148). -/
def Gate.order (n : GateNo) (g : Gate) : GateOrder :=
  ⟨g.mode, n, g.epoch, g.taken.lastAdd, g.res, g.divisor, g.pendingAdd⟩

/-- The 16 bytes of a Gate Order; bytes 7 and 13 to 15 are zero (Table 13-4, R194). -/
def GateOrder.bytes (o : GateOrder) : List Byte :=
  be 1 0x81 ++ be 1 o.mode.code ++ be 2 o.gate.val ++ be 1 o.epoch.toNat ++ be 1 o.addNumber.toNat
    ++ be 1 o.res.code ++ be 1 0 ++ be 2 o.divisor ++ be 3 o.add ++ be 3 0

/-- The gates at the head of the FIFO that the next order frame takes (R15). -/
def Gpm.batch (m : Gpm) : List GateNo := m.fifo.take 32

/-- The orders of the next order frame, in FIFO order. -/
def Gpm.orders (m : Gpm) : List GateOrder := m.batch.map fun g => (m.gate g).order g

/-- The batch leaves the FIFO and each record is marked as taken (R147, R148). -/
def Gpm.takeBatch (m : Gpm) : Gpm :=
  { m.batch.foldl (fun m g => m.modGate g Gate.taken) m with fifo := m.fifo.drop 32 }

/-! ### Checks of gate reports -/

/-- The common checks of R150: the gate is BOUND, at the report's epoch, to an entry with the report's
flow hash. -/
def Gpm.common (m : Gpm) (g : GateNo) (epoch : BitVec 4) (hash : BitVec 32) : Bool :=
  match (m.gate g).bound with
  | none => false
  | some k => (m.gate g).epoch == epoch && k.hash == hash

/-- The checks of a Gate Spent: the common ones, the echo, and no pending add (R151). -/
def Gpm.spentValid (m : Gpm) (g : GateNo) (epoch : BitVec 4) (echo : BitVec 8) (hash : BitVec 32) : Bool :=
  m.common g epoch hash && (m.gate g).lastAdd == echo && (m.gate g).pendingAdd == 0

/-- The slot of the entry a gate is bound to. -/
def State.boundSlot (s : State) (g : GateNo) : Option Slot :=
  (s.gpm.gate g).bound.bind fun k => (s.rtb.lookup k.hash k.port).map (·.1)

/-- A gate report counted as stale (R152). -/
def countStale (s : State) : State :=
  { s with gpm := { s.gpm with staleReports := sat32 (s.gpm.staleReports + 1) } }

end Sys2Proof.Machine
end

