-- ==== Sys2Proof/Machine/Credit.lean ====
section
/-! DEFINITION. The Credit Unit: the four credit stages, distribution and grants, refunds, divisors and
reported rates (10_credit_and_rate_arithmetic.md). -/

namespace Sys2Proof.Machine

/-- The largest value of the episode allowance A and of a drained delta. -/
def maxA : Nat := 16777215

/-! ### The current step -/

/-- The length of a program as it stands (R75). -/
def State.programLength (s : State) (q : ProgNo) : Nat := s.pgs.programs[q].length

/-- A step for an index beyond its program, which no episode reads (R75, R77). -/
def Step.none : Step := ⟨0, .coarse, 0, 0, 1, 0, 0, .guardOnly, 0, 0⟩

/-- The step an episode is in: the step of its own program at its step index (R75). -/
def State.currentStep (s : State) (p : Port) : Step :=
  (s.pgs.programs[(s.prcAt p).episode.program]).getD (s.prcAt p).episode.stepIndex Step.none

/-! ### Credit stages -/

/-- Stage C1, the raw credit (R157). -/
def creditRaw (st : Step) (delta : Nat) : Nat := delta * st.fa / st.fb

/-- Stage C2, withheld at or above the ceiling level (R157). -/
def creditGated (st : Step) (level delta : Nat) : Nat :=
  if st.lc ≤ level then 0 else creditRaw st delta

/-- Stage C3, within what is left of the step budget (R158). -/
def creditBudgeted (st : Step) (credit level delta : Nat) : Nat :=
  if st.budget = 0 then creditGated st level delta
  else min (creditGated st level delta) (st.budget - credit)

/-- Bytes added to A, with saturation: the excess goes to the credit-overflow counter and raises
CREDIT_OVERFLOW (R159, R163, R168). -/
def addToPool (p : Port) (n : Nat) (s : State) : State :=
  if (s.cruAt p).a + n ≤ maxA then s.modCru p fun c => { c with a := c.a + n }
  else
    let excess := (s.cruAt p).a + n - maxA
    let s1 := s.modCru p fun c => { c with a := maxA }
    let s2 : State := { s1 with cru := { s1.cru with overflow := sat32 (s1.cru.overflow + excess) } }
    s2.raiseEpisode .creditOverflow p excess

/-- The credit stages of one accepted report under the current step (R157 to R159). -/
def creditReport (p : Port) (level delta : Nat) (s : State) : State :=
  let c3 := creditBudgeted (s.currentStep p) (s.cruAt p).s level delta
  ((s.modCru p fun c => { c with s := sat32 (c.s + c3) }).modEpisode p fun e =>
    { e with credited := sat32 (e.credited + c3) }) |> addToPool p c3

/-! ### Distribution -/

/-- A member is ready when it is dry and its gate holds no pending add (R160). -/
def State.ready (s : State) (i : Slot) : Bool :=
  match s.rtb.entry? i with
  | some e => e.dry == some true &&
      (match e.gate with | some r => (s.gpm.gate r.gate).pendingAdd == 0 | none => false)
  | none => false

/-- One member receives the grant min(share, cap) (R161). -/
def grant (p : Port) (share : Nat) (s : State) (i : Slot) : State :=
  match s.rtb.entry? i with
  | none => s
  | some e =>
    let g := min share e.cap
    let s1 := s.modCru p fun c => { c with a := c.a - g }
    let s2 := onGateOf i (fun n m => m.addAllowance n g) s1
    s2.modEntry i fun x => { x with dry := some false, granted := sat32 (x.granted + g) }

/-- Distribution: the share of each ready member is the largest multiple of 64 in A / d; below 1,024
nothing is granted (R160, R161). -/
def distribute (p : Port) (s : State) : State :=
  let members := (s.aduAt p).admitted.filter s.ready
  if members.length = 0 then s
  else
    let share := (s.cruAt p).a / members.length / 64 * 64
    if share < 1024 then s else members.foldl (grant p share) s

/-! ### Divisors and rates -/

/-- The per-gate divisor for k admitted entries (R165). -/
def gateDivisor (pt k : Nat) : Nat := min 4095 ((pt + 1) * k - 1)

/-- The base of a resolution in kb/s (R167). -/
def Resolution.base : Resolution → Nat
  | .coarse => 102400000
  | .fine => 10240000

/-- A reported rate in kb/s (R167). -/
def reportedRate (res : Resolution) (divisor : Nat) : Nat := res.base / (divisor + 1)

/-- Re-rating: every admitted gate is given the current step's divisor for the present k, and the
step's resolution (R133, R145, R166). Gates whose wanted mode is not SHAPED are left alone. -/
def rerate (p : Port) (s : State) : State :=
  let k := (s.aduAt p).admitted.length
  let st := s.currentStep p
  (s.aduAt p).admitted.foldl (fun s i =>
    onGateOf i (fun g m =>
      if (m.gate g).mode = .shaped then m.want g .shaped (gateDivisor st.pt k) st.res else m) s) s

/-- The rate GET_PORT reports for the admitted gates of a port; 0 when k is 0 (R167). -/
def State.portRate (s : State) (p : Port) : Nat :=
  let k := (s.aduAt p).admitted.length
  if k = 0 then 0 else reportedRate (s.currentStep p).res (gateDivisor (s.currentStep p).pt k)

/-- The rate the gate table reports: of a SHAPED gate only (R153, R167). -/
def Gate.rate (g : Gate) : Nat := if g.mode = .shaped then reportedRate g.res g.divisor else 0

end Sys2Proof.Machine
end

