-- ==== Sys2Proof/Machine/Admission.lean ====
section
/-! DEFINITION. The Admission Unit: admitting, holding, leaving out and bypassing an entry, the opening
fill, arrivals, refill, Hold Pressure, release and return (08_admission_and_holding.md). -/

namespace Sys2Proof.Machine

/-! ### The two collections -/

/-- The admitted count k of a port. -/
def State.admittedCount (s : State) (p : Port) : Nat := (s.aduAt p).admitted.length

/-- An admitted entry carries the overdraft mark. -/
def State.marked (s : State) (i : Slot) : Bool :=
  match s.rtb.entry? i with
  | some e => e.overdraft == some true
  | none => false

/-- The overdraft count of a port: members of its admitted set that carry the mark. -/
def State.overdraftCount (s : State) (p : Port) : Nat := (s.aduAt p).admitted.countP s.marked

/-- The band of the entry in a slot. -/
def State.bandOf (s : State) (i : Slot) : Nat :=
  match s.rtb.entry? i with
  | some e => e.band.val
  | none => 3

/-- A joining member stands at the end of its band: ahead of every member of a higher-numbered band
(R123). -/
def placeInQueue (s : State) (i : Slot) : List Slot → List Slot
  | [] => [i]
  | j :: q => if s.bandOf i < s.bandOf j then i :: j :: q else j :: placeInQueue s i q

/-! ### The four actions -/

/-- A bind has failed: the entry becomes UNGATED and a GATE_SHORTAGE is raised (R127). -/
def makeUngated (p : Port) (i : Slot) (s : State) : State :=
  let s1 := s.modEntry i fun e => { e with state := .ungated, gate := none, dry := none, overdraft := none }
  let s2 := s1.modEpisode p fun e => { e with ungated := sat32 (e.ungated + 1) }
  let s3 : State := { s2 with adu := { s2.adu with shortages := sat32 (s2.adu.shortages + 1) } }
  s3.raiseEpisode .gateShortage p (s3.prcAt p).episode.ungated

/-- What every admission does after the gate has been obtained (R125). -/
def joinAdmitted (p : Port) (i : Slot) (mark : Bool) (s : State) : State :=
  let s1 := s.modEntry i fun e => { e with state := .admitted, dry := some true, overdraft := some mark }
  let s2 := s1.modAdu p fun a => { a with admitted := a.admitted ++ [i] }
  s2.modEpisode p fun e =>
    { e with admissions := sat32 (e.admissions + 1), overdrafts := sat32 (e.overdrafts + bit mark) }

/-- Admitting an entry that holds no gate, with a new bind (R125). -/
def admitNew (p : Port) (i : Slot) (s : State) : State :=
  match bindGate i .shaped (s.currentStep p).res s with
  | none => makeUngated p i s
  | some s1 => joinAdmitted p i false s1

/-- Admitting a WAITING entry, which keeps its gate and epoch; the entry leaves the wait queue (R125,
R145). -/
def admitWaiting (p : Port) (mark : Bool) (i : Slot) (s : State) : State :=
  let res := (s.currentStep p).res
  let s1 := onGateOf i (fun g m => m.want g .shaped (m.gate g).divisor res) s
  let s2 := s1.modAdu p fun a => { a with waitQ := a.waitQ.erase i }
  joinAdmitted p i mark s2

/-- Holding an entry: a gate bound CLOSED and a place in the wait queue (R126). -/
def hold (p : Port) (i : Slot) (s : State) : State :=
  match bindGate i .closed (s.currentStep p).res s with
  | none => makeUngated p i s
  | some s1 =>
    let s2 := s1.modEntry i fun e => { e with state := .waiting }
    s2.modAdu p fun a => { a with waitQ := placeInQueue s2 i a.waitQ }

/-- Bypassing an entry: it leaves the wait queue if it stood there, and any gate it holds is freed
(R128). -/
def bypass (p : Port) (i : Slot) (s : State) : State :=
  let s1 := freeGateOf i (s.modAdu p fun a => { a with waitQ := a.waitQ.erase i })
  let s2 := s1.modEntry i fun e => { e with state := .bypassed, dry := none, overdraft := none }
  let s3 := s2.modEpisode p fun e => { e with bypassed := sat32 (e.bypassed + 1) }
  let s4 : State := { s3 with adu := { s3.adu with bypasses := sat32 (s3.adu.bypasses + 1) } }
  s4.raiseEpisode .bypass p (s4.prcAt p).episode.bypassed

/-! ### Filling, arrivals and refill -/

/-- The entry's granted bytes are 0 when the ADU takes it (R39). -/
def takeEntry (i : Slot) (s : State) : State := s.modEntry i fun e => { e with granted := 0 }

/-- Held while the queue has fewer than 256 members, bypassed otherwise (R126, R129 to R131). -/
def holdOrBypass (p : Port) (i : Slot) (s : State) : State :=
  if (s.aduAt p).waitQ.length < 256 then hold p i s else bypass p i s

/-- One entry placed by the opening fill (R129). -/
def placeAtOpening (p : Port) (s : State) (i : Slot) : State :=
  let s1 := takeEntry i s
  if s1.admittedCount p < (s1.currentStep p).width then admitNew p i s1 else holdOrBypass p i s1

/-- An entry that the opening fill takes: eligible and SEEN (R129). -/
def State.fillable (s : State) (band : Nat) (i : Slot) : Bool :=
  match s.rtb.entry? i with
  | some e => e.eligible && e.state == .seen && e.band.val == band
  | none => false

/-- The entries that the opening fill takes: band 0 first, and arrival order within a band (R129). -/
def State.fillOrder (s : State) (p : Port) : List Slot :=
  (List.range 4).flatMap fun b => (s.rtb.arrival[p]).filter (s.fillable b)

/-- The opening fill (R129). -/
def openingFill (p : Port) (s : State) : State := (s.fillOrder p).foldl (placeAtOpening p) s

/-- Refill: while k is below W, the head of the wait queue is admitted; only in RELIEF (R132). -/
def refill (p : Port) (s : State) : State :=
  if (s.prcAt p).state = .relief then
    (s.aduAt p).waitQ.foldl (fun s i =>
      if s.admittedCount p < (s.currentStep p).width then admitWaiting p false i s else s) s
  else s

/-- Re-rating when k has changed between two states (R133). -/
def rerateIfChanged (p : Port) (k : Nat) (s : State) : State :=
  if s.admittedCount p = k then s else rerate p s

/-- An arrival handed over by the RTB, placed in RELIEF (R130) or PAUSED (R131). -/
def placeArrival (p : Port) (i : Slot) (s : State) : State :=
  if (s.prcAt p).state = .relief ∧ s.admittedCount p < (s.currentStep p).width ∧ (s.aduAt p).waitQ = [] then
    admitNew p i s
  else holdOrBypass p i s

/-- The whole of an arrival: the entry is taken and placed, and refill and re-rating follow (R130 to
R133). -/
def arrive (p : Port) (i : Slot) (s : State) : State :=
  rerateIfChanged p (s.admittedCount p) (refill p (placeArrival p i (takeEntry i s)))

/-! ### Hold Pressure -/

/-- A valid Hold Pressure acts on the bound entry (R134). -/
def holdPressureOn (i : Slot) (held : BitVec 24) (s : State) : State :=
  match s.rtb.entry? i with
  | none => s
  | some e =>
    let s1 := s.modEntry i fun x => { x with lastHeld := some held }
    if e.state = .waiting then
      if (s.prcAt e.port).state = .relief ∧ s1.overdraftCount e.port < 8 then
        rerate e.port (admitWaiting e.port true i s1)
      else bypass e.port i s1
    else { s1 with adu := { s1.adu with ignored := sat32 (s1.adu.ignored + 1) } }

/-! ### Release and return -/

/-- One entry released at the entry into the drain phase (R137). -/
def releaseEntry (s : State) (i : Slot) : State :=
  match s.rtb.entry? i with
  | none => s
  | some e =>
    if e.state = .waiting ∨ e.state = .admitted then
      (onGateOf i (fun g m => m.release g) s).modEntry i fun x =>
        { x with state := .released, dry := none, overdraft := none }
    else s

/-- Release: every WAITING and ADMITTED entry, in arrival order; both collections become empty (R137). -/
def releaseAll (p : Port) (s : State) : State :=
  ((s.rtb.arrival[p]).foldl releaseEntry s).modAdu p fun _ => ⟨[], []⟩

/-- One entry returned to SEEN at the episode end, its gate freed (R41, R138). -/
def returnEntry (s : State) (i : Slot) : State :=
  (freeGateOf i s).modEntry i fun x => { x with state := .seen, dry := none, overdraft := none }

/-- Return: every entry of the port, in arrival order; both collections become empty (R41, R138). -/
def returnAll (p : Port) (s : State) : State :=
  ((s.rtb.arrival[p]).foldl returnEntry s).modAdu p fun _ => ⟨[], []⟩

end Sys2Proof.Machine
end

