-- ==== Sys2Proof/Machine/Relief.lean ====
section
/-! DEFINITION. The Port Relief Controller: port states and their timers, opening an episode, steps,
accepted reports, the drain phase and the episode end (06_the_port_relief_cycle.md,
07_step_execution.md), with the history ring (R170, R171). -/

namespace Sys2Proof.Machine

/-! ### States and timers -/

/-- A port has an episode in RELIEF, PAUSED and DRAIN (section 6.2). -/
def PortState.hasEpisode : PortState → Bool
  | .relief => true | .paused => true | .drain => true | _ => false

/-- The stale timer runs in WATCH, RELIEF, PAUSED and DRAIN (Table 6-3). -/
def PortState.runsStale : PortState → Bool
  | .watch => true | .relief => true | .paused => true | .drain => true | _ => false

/-- The guard timer runs in RELIEF and is frozen in PAUSED (Table 6-3). -/
def PortState.runsGuard : PortState → Bool
  | .relief => true | .paused => true | _ => false

/-- A timer kept if the new state runs it, and cancelled otherwise (R87). -/
def Timer.keptIf (b : Bool) (t : Timer) : Timer := if b then t else .stopped

/-- A change of port state: every timer the new state does not run is cancelled, and the qualified
flag does not outlive WATCH (R87). -/
def PrcPort.enter (st : PortState) (q : PrcPort) : PrcPort :=
  { q with
    state := st
    qualified := q.qualified && st == .watch
    debounce := q.debounce.keptIf (st == .watch)
    stale := q.stale.keptIf st.runsStale
    guard := q.guard.keptIf st.runsGuard
    drain := q.drain.keptIf (st == .drain)
    cooldown := q.cooldown.keptIf (st == .cooldown) }

/-- A change of port state in the whole state. -/
def State.enterPort (p : Port) (st : PortState) (s : State) : State := s.modPrc p (PrcPort.enter st)

/-- The stale timer restarted with Ts (R91, R96, R97, R100). -/
def restartStale (p : Port) (s : State) : State :=
  s.modPrc p fun q => { q with stale := .startAt s.now q.config.ts }

/-! ### Steps -/

/-- Entering a step (R110): the index and the count advance, S becomes 0, the guard is started or
discarded, the admitted set is refilled and re-rated, and EPISODE_STEP is raised (R111, R112, R122). -/
def enterStep (p : Port) (index : Nat) (byGuard : Bool) (s : State) : State :=
  let s1 := s.modEpisode p fun e => { e with stepIndex := index, stepsEntered := e.stepsEntered + 1 }
  let s2 := s1.modCru p fun c => { c with s := 0 }
  let g := (s2.currentStep p).guard
  let s3 := s2.modPrc p fun q => { q with guard := if g = 0 then .stopped else .startAt s.now g }
  let s4 := rerate p (refill p s3)
  s4.raiseEpisode .episodeStep p (index + mark128 byGuard)

/-- Entering the drain phase (R99): the guard is cancelled, every held and admitted entry is released,
and the drain timer is started with Tdr. -/
def enterDrain (p : Port) (s : State) : State :=
  let s1 := releaseAll p (s.enterPort p .drain)
  s1.modPrc p fun q => { q with drain := .startAt s.now q.config.tdr }

/-- The end of the current step: the next step, or the drain phase after the last (R115, R116, R121). -/
def endStep (p : Port) (byGuard : Bool) (s : State) : State :=
  let e := (s.prcAt p).episode
  if e.stepIndex + 1 < s.programLength e.program then enterStep p (e.stepIndex + 1) byGuard s
  else enterDrain p s

/-- The transfer condition of a step at a report (R114). -/
def transferMet (st : Step) (credit level : Nat) (queueEmpty : Bool) : Bool :=
  match st.kind with
  | .budget => credit == st.budget
  | .level => decide (level ≤ st.lt)
  | .queueEmpty => queueEmpty
  | .guardOnly => false

/-- The three stages of an accepted report in RELIEF, all with the step read at the first (R113). -/
def reportStages (p : Port) (level delta : Nat) (s : State) : State :=
  let st := s.currentStep p
  let s1 := distribute p (creditReport p level delta s)
  if transferMet st (s1.cruAt p).s level (s1.aduAt p).waitQ.isEmpty then endStep p false s1 else s1

/-! ### Opening an episode -/

/-- The episode number counter after one more episode: it wraps from 4,294,967,295 to 1 (R95, item 1). -/
def nextEpisodeNumber (n : Nat) : Nat := if n = 4294967295 then 1 else n + 1

/-- The record that an opening starts (R95, items 2 and 3). -/
def Episode.start (number : Nat) (origin : Origin) (q : ProgNo) (now : Nat) : Episode :=
  { Episode.reset with
    number := number, origin := origin, program := q, openTime := BitVec.ofNat 32 now
    clock := ⟨0, some now⟩ }

/-- Opening an episode on a port, whole (R95). -/
def openEpisode (p : Port) (origin : Origin) (q : ProgNo) (s : State) : State :=
  let n := nextEpisodeNumber s.prc.episodeCounter
  let s1 : State := { s with prc := { s.prc with episodeCounter := n } }
  let s2 := s1.modEpisode p fun _ => Episode.start n origin q s.now
  let s3 := s2.modOev p fun o => { o with peak := o.level }
  let s4 := s3.modCru p fun _ => ⟨0, 0⟩
  let s5 := (s4.enterPort p .relief).modPrc p fun x =>
    { x with
      guard := .stopped
      stale := if x.stale.active then x.stale else .startAt s.now x.config.ts }
  let s6 := enterStep p 0 false (openingFill p s5)
  s6.raiseEpisode .episodeOpen p (q.val + mark128 (origin == .manual))

/-- The opening condition of a qualified port in WATCH (R93). -/
def State.openingHolds (s : State) (p : Port) : Bool :=
  (s.prcAt p).state == .watch && (s.prcAt p).qualified
    && decide ((s.prcAt p).config.fanIn ≤ s.fanIn p)
    && !(s.pgs.programs[(s.prcAt p).config.program]).isEmpty

/-- A check of the opening condition: an AUTO episode opens on the configured program when it holds
(R93). -/
def checkOpening (p : Port) (s : State) : State :=
  if s.openingHolds p then openEpisode p .auto (s.prcAt p).config.program s else s

/-! ### The episode end -/

/-- The history ring takes a summary, dropping the oldest of 32 (R171). -/
def Ern.append (x : Summary) (e : Ern) : Ern :=
  if e.history.length < 32 then
    { e with history := e.history ++ [x], written := sat32 (e.written + 1) }
  else
    { e with
      history := e.history.drop 1 ++ [x], written := sat32 (e.written + 1)
      dropped := sat32 (e.dropped + 1) }

/-- The summary of a closed episode record (Table 11-1). -/
def Episode.summary (p : Port) (outcome : EpisodeOutcome) (peak : Nat) (e : Episode) : Summary where
  number := e.number
  port := p
  program := e.program
  origin := e.origin
  outcome := outcome
  openTime := e.openTime
  clock := e.clock.counted
  peak := peak
  admissions := e.admissions
  overdrafts := e.overdrafts
  bypassed := e.bypassed
  ungated := e.ungated
  completed := e.completed
  endedHeld := e.endedHeld
  credited := e.credited
  stepsEntered := e.stepsEntered
  stepsByGuard := e.stepsByGuard
  standbyDiscarded := e.standbyDiscarded

/-- An end with this outcome and stall action lets a standby start (R103, second row). -/
def letsStandbyStart (outcome : EpisodeOutcome) (stall : StallAction) : Bool :=
  outcome == .completed || (outcome == .drainStall && stall == .cooldown)

/-- COOLDOWN with the cooldown timer started with Tc, or IDLE when Tc is 0 (R103). -/
def toCooldown (p : Port) (s : State) : State :=
  if (s.prcAt p).config.tc = 0 then s.enterPort p .idle
  else (s.enterPort p .cooldown).modPrc p fun q => { q with cooldown := .startAt s.now q.config.tc }

/-- The standby slot emptied. -/
def clearStandby (p : Port) (s : State) : State := s.modPrc p fun q => { q with standby := none }

/-- The next state after an episode end (R103), with the standby slot as it stood. -/
def afterEnd (p : Port) (outcome : EpisodeOutcome) (slot : Option ProgNo) (s : State) : State :=
  let s0 := clearStandby p s
  match outcome with
  | .drainStall =>
    match (s.prcAt p).config.stall with
    | .disarm => (s0.enterPort p .disarmed).raiseEpisode .portDisarmed p 0
    | .cooldown =>
      match slot with
      | some q => (openEpisode p .manual q s0).raiseEpisode .standbyStart p q.val
      | none => toCooldown p s0
  | .completed =>
    match slot with
    | some q => (openEpisode p .manual q s0).raiseEpisode .standbyStart p q.val
    | none => toCooldown p s0
  | .stale => toCooldown p s0
  | .aborted => toCooldown p s0
  | .disarmed => s0.enterPort p .disarmed
  | .fault => s0.enterPort p .idle
  | .linkStop => s0.enterPort p .idle
  | .linkReset => s0.enterPort p .idle

/-- An episode end, items 1 to 5 of R102 in order. -/
def closeEpisode (p : Port) (outcome : EpisodeOutcome) (s : State) : State :=
  let discarded := (s.prcAt p).standby.isSome && !letsStandbyStart outcome (s.prcAt p).config.stall
  let s1 := s.modEpisode p fun e => { e with clock := e.clock.halt s.now }
  let s2 := (returnAll p s1).modCru p fun _ => ⟨0, 0⟩
  let s3 := s2.modEpisode p fun e => { e with outcome := some outcome, standbyDiscarded := discarded }
  let s4 : State :=
    { s3 with ern := s3.ern.append ((s3.prcAt p).episode.summary p outcome (s3.oevAt p).peak) }
  s4.raiseEpisode .episodeEnd p (outcome.code + mark128 discarded)

/-- An episode end, whole (R102, R103). -/
def endEpisode (p : Port) (outcome : EpisodeOutcome) (s : State) : State :=
  afterEnd p outcome (s.prcAt p).standby (closeEpisode p outcome s)

/-! ### The accepted-report event and the fan-in event -/

/-- An accepted report taken by the PRC, by the port's state (R31, R90, R91, R96, R97, R100, R104). -/
def reportToPrc (p : Port) (level delta : Nat) (s : State) : State :=
  let q := s.prcAt p
  match q.state with
  | .disarmed => s
  | .idle =>
    if q.config.lw ≤ level then
      (s.enterPort p .watch).modPrc p fun x =>
        { x with
          qualified := false
          debounce := .startAt s.now x.config.td
          stale := .startAt s.now x.config.ts }
    else s
  | .watch =>
    if level < q.config.lw then (restartStale p s).enterPort p .idle
    else checkOpening p (restartStale p s)
  | .relief => reportStages p level delta (restartStale p s)
  | .paused => restartStale p s
  | .drain =>
    if level ≤ q.config.ld then endEpisode p .completed (restartStale p s) else restartStale p s
  | .cooldown => s

end Sys2Proof.Machine
end

