-- ==== Sys2Proof/Machine/Fabric.lean ====
section
/-! DEFINITION. The Fabric Link Controller: the frame receiver, frame events by link state, the link
fault, record checks and hand-over, the teardown (01_fabric_link.md). -/

namespace Sys2Proof.Machine

/-! ### The frame receiver (R1) -/

/-- What the receiver makes of a symbol: a well-formed frame with its sequence and records, or a
malformed frame with its sequence field if both bytes had been received. -/
inductive FrameEvent where
  | wellFormed (seq : BitVec 16) (records : List (List Byte))
  | malformed (seq : Option (BitVec 16))
deriving DecidableEq, Repr

/-- The sequence field of a frame of which `bytes` have been received since the sync word, if both of
its bytes are among them (R6). -/
def seqField (bytes : List Byte) : Option (BitVec 16) :=
  if 4 ≤ bytes.length then some (BitVec.ofNat 16 (fieldAt bytes 2 2)) else none

/-- Bytes from the sync word's end to the last CRC byte of a frame with this record count. -/
def frameBytes (count : Nat) : Nat := 8 + 16 * count

/-- The receiver takes one symbol (R1, Table 1-1). -/
def FabRx.next (rx : FabRx) (x : LaneSym) : FabRx × Option FrameEvent :=
  match rx, x with
  | .hunting, .data _ => (.hunting, none)
  | .hunting, .sync => (.reading [], none)
  | .reading bs, .sync => (.reading [], some (.malformed (seqField bs)))
  | .reading bs, .data b =>
    let got := bs ++ [b]
    let count := fieldAt got 0 1
    if 32 < count then (.hunting, some (.malformed (seqField got)))
    else if got.length = 2 ∧ fieldAt got 1 1 ≠ 1 then (.hunting, some (.malformed (seqField got)))
    else if got.length < frameBytes count then (.reading got, none)
    else
      let covered := got.take (4 + 16 * count)
      if readBE (got.drop (4 + 16 * count)) = (crc32 covered).toNat then
        (.hunting, some (.wellFormed (BitVec.ofNat 16 (fieldAt got 2 2))
          (cutRecords count (covered.drop 4))))
      else (.hunting, some (.malformed (seqField got)))

/-! ### The teardown -/

/-- A port at the teardown, by its state (R107). -/
def teardownPort (outcome : EpisodeOutcome) (s : State) (p : Port) : State :=
  match (s.prcAt p).state with
  | .relief => endEpisode p outcome s
  | .paused => endEpisode p outcome s
  | .drain => endEpisode p outcome s
  | .watch => s.enterPort p .idle
  | .cooldown => s.enterPort p .idle
  | .idle => s
  | .disarmed => s

/-- OEV of one port at the teardown (R36). -/
def OevPort.teardown (o : OevPort) : OevPort :=
  { o with baseline := false, lastSeq := 0, lastDrained := 0, level := 0, peak := 0 }

/-- The gates that entries still hold once the episode ends are done: every entry of the table is asked
(R58). An episode end has freed every gate of its port, so none is left for it when entries hold gates
only in ports with episodes (R140). -/
def freeHeldGates (s : State) : State := (s.rtb.table.map (·.1)).foldl (fun s i => freeGateOf i s) s

/-- The tables of Table 1-4 as the teardown leaves them: OEV (R36), RTB (R58), ADU, CRU (R156), and the
records not yet handed over (R14). -/
def clearTables (s : State) : State :=
  { s with
    flc := { s.flc with handed := [] }
    oev := { s.oev with port := Vector.ofFn fun p => s.oev.port[p].teardown }
    rtb := { s.rtb with table := [], arrival := Vector.replicate 48 [] }
    adu := { s.adu with port := Vector.replicate 48 ⟨[], []⟩ }
    cru := { s.cru with port := Vector.replicate 48 ⟨0, 0⟩ } }

/-- The teardown: one event, port by port in ascending order (R107, R154), then the tables (R17). -/
def teardown (outcome : EpisodeOutcome) (s : State) : State :=
  clearTables (freeHeldGates ((List.finRange 48).foldl (teardownPort outcome) s))

/-! ### Counters, the error count and the link fault -/

/-- The link counters changed. -/
def State.modLink (f : LinkCounters → LinkCounters) (s : State) : State :=
  { s with flc := { s.flc with ctr := f s.flc.ctr } }

/-- The FLC declares a link fault (R7). -/
def declareFault (s : State) : State :=
  let s1 := s.modLink fun c => { c with linkFaults := sat32 (c.linkFaults + 1) }
  let s2 := s1.setLink .faulted
  teardown .fault (s2.raiseDevice .linkFault s2.flc.errCount)

/-- The consecutive error count is raised, and compared with the fault limit (R7). -/
def raiseErrors (s : State) : State :=
  let n := min 255 (s.flc.errCount + 1)
  let s1 : State := { s with flc := { s.flc with errCount := n } }
  if s.flc.faultLimit ≤ n then declareFault s1 else s1

/-! ### Records of a taken frame -/

/-- One record is examined, and handed on or discarded (R13, R14). -/
def examineRecord (seq : BitVec 16) (s : State) (x : List Byte × Nat) : State :=
  match readRecord x.1 with
  | .ok r => { s with flc := { s.flc with handed := s.flc.handed ++ [r] } }
  | .error k =>
    let s1 := s.modLink fun c => { c with recordErrors := sat32 (c.recordErrors + 1) }
    (s1.offer k seq x.2).raiseDevice .recordError s1.flc.ctr.recordErrors

/-- The records of a taken frame, record 0 first (R13, R14). -/
def examineRecords (seq : BitVec 16) (records : List (List Byte)) (s : State) : State :=
  records.zipIdx.foldl (examineRecord seq) s

/-- A frame is taken: the expected sequence and the well-formed-frame counter (R3 to R5). -/
def countTaken (seq : BitVec 16) (s : State) : State :=
  ({ s with flc := { s.flc with expected := seq + 1 } } : State).modLink fun c =>
    { c with wellFormed := sat32 (c.wellFormed + 1) }

/-! ### Frame events -/

/-- A malformed frame in SYNCING or UP is counted and offered (R3, R6). -/
def countMalformed (seq : Option (BitVec 16)) (s : State) : State :=
  (s.modLink fun c => { c with malformed := sat32 (c.malformed + 1) }).offer .malformed
    (seq.getD s.flc.expected) 32

/-- A frame discarded unread (R2, R5). -/
def countDiscarded (s : State) : State :=
  s.modLink fun c => { c with discarded := sat32 (c.discarded + 1) }

/-- A well-formed frame in SYNCING (R3). -/
def takeSyncing (seq : BitVec 16) (records : List (List Byte)) (s : State) : State :=
  let s1 := countTaken seq { s with flc := { s.flc with errCount := 0 } }
  examineRecords seq records (s1.setLink .up)

/-- A well-formed frame in UP with the expected sequence (R4). -/
def takeInSequence (seq : BitVec 16) (records : List (List Byte)) (s : State) : State :=
  examineRecords seq records (countTaken seq { s with flc := { s.flc with errCount := 0 } })

/-- A well-formed frame in UP with another sequence (R5). -/
def takeOutOfSequence (seq : BitVec 16) (records : List (List Byte)) (s : State) : State :=
  let gap := (seq - s.flc.expected).toNat
  let s1 := countTaken seq (s.modLink fun c => { c with lost := sat32 (c.lost + gap) })
  let s2 := raiseErrors (s1.offer .sequence seq 32)
  if s2.flc.link = .up then examineRecords seq records s2 else countDiscarded s2

/-- A frame event, by the link state at the moment it is taken (R2 to R6). -/
def takeFrameEvent (e : FrameEvent) (s : State) : State :=
  match s.flc.link, e with
  | .down, _ => s
  | .faulted, _ => countDiscarded s
  | .stopping, _ => countDiscarded s
  | .syncing, .wellFormed seq rs => takeSyncing seq rs s
  | .syncing, .malformed seq => countMalformed seq s
  | .up, .wellFormed seq rs =>
    if seq = s.flc.expected then takeInSequence seq rs s else takeOutOfSequence seq rs s
  | .up, .malformed seq => raiseErrors (countMalformed seq s)

/-- One symbol of the lane: ignored in DOWN; otherwise the receiver takes it, and a frame event it
causes is taken (R1). -/
def takeSymbol (s : State) (x : LaneSym) : State :=
  if s.flc.link = .down then s
  else
    let (rx, ev) := s.flc.rx.next x
    let s1 : State := { s with flc := { s.flc with rx := rx } }
    match ev with
    | none => s1
    | some e => takeFrameEvent e s1

end Sys2Proof.Machine
end

