-- ==== Sys2Proof/Machine/Transmit.lean ====
section
/-! DEFINITION. The two transmitters, and what follows every event: the FLC begins an order frame or an
idle frame, or completes the way to DOWN (R11, R15, R16), and the CLC begins the next reply or notice
(R176, R186). -/

namespace Sys2Proof.Machine

/-! ### The fabric transmitter -/

/-- A frame begins: it carries the outbound sequence, and the idle interval is restarted (R15, R16). -/
def beginFrame (records : List (List Byte)) (s : State) : State :=
  ({ s with flc := { s.flc with
      tx := some (fabricFrame s.flc.outSeq records)
      outSeq := s.flc.outSeq + 1
      idle := .running s.now } } : State).modLink fun c => { c with framesSent := sat32 (c.framesSent + 1) }

/-- An order frame: up to 32 gates leave the head of the FIFO, each with the order composed from its
record (R15, R148). -/
def beginOrderFrame (s : State) : State :=
  let s1 := (beginFrame (s.gpm.orders.map GateOrder.bytes) s).modLink fun c =>
    { c with ordersSent := sat32 (c.ordersSent + s.gpm.orders.length) }
  { s1 with gpm := s.gpm.takeBatch }

/-- The link enters DOWN from STOPPING: receiver and transmitter stop (R11, R16). -/
def enterDown (s : State) : State :=
  ({ s with flc := { s.flc with rx := .hunting, idle := .stopped } } : State).setLink .down

/-- The link states in which idle frames are sent (Table 1-2). -/
def LinkState.sendsIdle : LinkState → Bool
  | .syncing => true | .up => true | .faulted => true | _ => false

/-- The free fabric transmitter begins what there is to send (R15, R16); in STOPPING with nothing left
to send, the link enters DOWN (R11). -/
def fabPump (s : State) : State :=
  if s.flc.tx.isSome ∨ s.flc.link = .down then s
  else if s.gpm.fifo ≠ [] then beginOrderFrame s
  else if s.flc.idle = .runOut ∧ s.flc.link.sendsIdle then beginFrame [] s
  else if s.flc.link = .stopping then enterDown s
  else s

/-! ### The control transmitter -/

/-- The body of a notice frame (Table 13-6). -/
def Notice.body (n : Notice) : List Byte :=
  be 1 n.cls.code.val ++ be 1 (match n.scope with | some p => p.val | none => 255) ++ be 1 n.level
    ++ be 1 n.count ++ be 4 n.episode ++ be 4 n.value ++ be 4 n.time.toNat

/-- One entry goes before another in the send order: higher level, then lower class, then lower port,
device scope last (R176). -/
def Notice.before (a b : Notice) : Bool :=
  decide (b.level < a.level) || (a.level == b.level && decide (a.key < b.key))

/-- The entry that the ERN selects (R176). -/
def selectNotice : List Notice → Option Notice
  | [] => none
  | n :: l =>
    match selectNotice l with
    | none => some n
    | some m => if m.before n then some m else some n

/-- The free control transmitter begins the head reply, or the selected notice when no reply waits
(R176, R186). -/
def ctlPump (s : State) : State :=
  if s.clc.tx.isSome then s
  else
    match s.clc.replies with
    | r :: rest =>
      { s with clc := { s.clc with
          tx := some (ctlFrame r.kind r.tag r.body)
          replies := rest
          ctr := { s.clc.ctr with sent := sat32 (s.clc.ctr.sent + 1) } } }
    | [] =>
      match selectNotice s.ern.pendingSet with
      | none => s
      | some n =>
        { s with
          ern := { s.ern with pendingSet := s.ern.pendingSet.erase n, sent := sat32 (s.ern.sent + 1) }
          clc := { s.clc with tx := some (ctlFrame 0x7F 0 n.body) } }

/-! ### What follows every event -/

/-- What follows every event at once: each transmitter, if free, begins what it has to send. -/
def settle (s : State) : State := ctlPump (fabPump s)

/-- One event of the part. While a device reset is in progress nothing is taken (R191, R196). -/
def onEvent (f : State → State) (s : State) : Host.Outcome State Fault Refusal :=
  if s.phase = .running then .next (settle (f s)) else .next s

/-! ### Records reaching their blocks -/

/-- The blocks that take records (Table 1-3). -/
inductive Owner where
  | oev | rtb | gpm
deriving DecidableEq, Repr

/-- The block a record is handed to (Table 1-3). -/
def ownerOf : InRecord → Owner
  | .occupancy .. => .oev
  | .sighting .. => .rtb
  | .flowEnd .. => .rtb
  | .gateSpent .. => .gpm
  | .holdPressure .. => .gpm

/-- A record arrives at its block. Records reach a block only while the link is UP, and each block takes
its records in frame order (R14): the command's record is taken if it is the first its block has
waiting, or if none waits; behind other records it joins the records handed over
(notes/assumptions/5.md). -/
def arriveRecord (r : InRecord) (f : State → State) (s : State) : State :=
  if s.flc.link = .up then
    match s.flc.handed.find? fun x => ownerOf x == ownerOf r with
    | none => f s
    | some x =>
      if x = r then f { s with flc := { s.flc with handed := s.flc.handed.erase r } }
      else { s with flc := { s.flc with handed := s.flc.handed ++ [r] } }
  else s

/-! ### The commands of the lane -/

/-- FABRIC_FRAME_EVENT: the symbols are taken one by one (R1); the transmitters follow each. -/
def execFabricFrameEvent (syms : List LaneSym) (s : State) : Host.Outcome State Fault Refusal :=
  if s.phase = .running then .next (syms.foldl (fun s x => settle (takeSymbol s x)) s) else .next s

/-- FABRIC_TRANSMIT_COMPLETE: the last CRC byte has been sent and the transmitter is free (R15). -/
def execFabricTransmitComplete (s : State) : Host.Outcome State Fault Refusal :=
  onEvent (fun s => { s with flc := { s.flc with tx := none } }) s

/-- IDLE_INTERVAL_EXPIRY: the interval has run out; the frame it calls for begins when the transmitter
is free (R16). -/
def execIdleIntervalExpiry (s : State) : Host.Outcome State Fault Refusal :=
  onEvent (fun s =>
    match s.flc.idle with
    | .running start => if start + 100 ≤ s.now then { s with flc := { s.flc with idle := .runOut } } else s
    | _ => s) s

end Sys2Proof.Machine
end

