-- ==== Sys2Proof/Machine/Control.lean ====
section
/-! DEFINITION. The Control Line Controller: the character receiver, the request queue, taking a request
and composing its reply, the line errors (12_control_line.md), and the reset that follows the reply of
RESET_DEVICE (R191). -/

namespace Sys2Proof.Machine

/-! ### Line errors -/

/-- The CLC counters changed. Every change below saturates (DESIGN CHOICE, unsafe, notes/assumptions/21.md). -/
def State.modClcCtr (f : ClcCounters → ClcCounters) (s : State) : State :=
  { s with clc := { s.clc with ctr := f s.clc.ctr } }

/-- The counter of a line error's cause rises by 1 (R183) and saturates, which the rule leaves open (DESIGN CHOICE,
unsafe, notes/assumptions/21.md). -/
def countCause : LineCause → ClcCounters → ClcCounters
  | .gap, c => { c with gapErrors := sat32 (c.gapErrors + 1) }
  | .crc, c => { c with crcErrors := sat32 (c.crcErrors + 1) }
  | .length, c => { c with lengthErrors := sat32 (c.lengthErrors + 1) }
  | .framing, c => { c with framingErrors := sat32 (c.framingErrors + 1) }
  | .overrun, c => { c with overruns := sat32 (c.overruns + 1) }

/-- A line error is counted under its cause and raises LINE_ERROR (R183). -/
def lineError (cause : LineCause) (s : State) : State :=
  (s.modClcCtr (countCause cause)).raiseDevice .lineError cause.code

/-- The receiver returns to hunting, with the inter-byte timer cancelled (R181, R182). -/
def backToHunting (s : State) : State :=
  { s with clc := { s.clc with rx := .hunting, gap := .stopped } }

/-- The frame being read is discarded for a line error (R182). -/
def discardFrame (cause : LineCause) (s : State) : State := lineError cause (backToHunting s)

/-- A character skipped while hunting (R181). -/
def countSkipped (s : State) : State := s.modClcCtr fun c => { c with skipped := sat32 (c.skipped + 1) }

/-! ### The request queue -/

/-- A request frame with a good CRC enters the queue at the tail, or is an overrun (R184). -/
def queueRequest (r : CtlFrame) (s : State) : State :=
  if s.clc.requests.length < 4 then
    ({ s with clc := { s.clc with requests := s.clc.requests ++ [r] } } : State).modClcCtr fun c =>
      { c with received := sat32 (c.received + 1) }
  else lineError .overrun s

/-! ### The receiver -/

/-- The inter-byte setting in µs (R181). -/
def gapSetting : Nat := 200

/-- The receiver goes on reading, with the inter-byte timer restarted (R181). -/
def keepReading (got : List Byte) (s : State) : State :=
  { s with clc := { s.clc with rx := .reading got, gap := .startAt s.now gapSetting } }

/-- A byte of a frame being read: `got` holds the bytes after the start byte, this one the last (R181,
R182). -/
def readByte (got : List Byte) (s : State) : State :=
  let len := fieldAt got 0 2
  if got.length < 2 then keepReading got s
  else if got.length = 2 then
    if len < 2 ∨ 1026 < len then discardFrame .length s else keepReading got s
  else if got.length < 4 + len then keepReading got s
  else if readBE (got.drop (2 + len)) = (crc16 (got.take (2 + len))).toNat then
    queueRequest ⟨BitVec.ofNat 8 (fieldAt got 2 1), BitVec.ofNat 8 (fieldAt got 3 1),
      (got.drop 4).take (len - 2)⟩ (backToHunting s)
  else discardFrame .crc s

/-- CTL_BYTE_RECEIVED (R181). -/
def execCtlByteReceived (b : Byte) (s : State) : Host.Outcome State Fault Refusal :=
  onEvent (fun s =>
    match s.clc.rx with
    | .hunting => if b = 0xC5#8 then keepReading [] s else countSkipped s
    | .reading got => readByte (got ++ [b]) s) s

/-- CTL_FRAMING_ERROR: skipped while hunting, a line error while reading (R181, R182). -/
def execCtlFramingError (s : State) : Host.Outcome State Fault Refusal :=
  onEvent (fun s =>
    match s.clc.rx with
    | .hunting => countSkipped s
    | .reading _ => discardFrame .framing s) s

/-- The inter-byte timer of a frame being read is due. -/
def State.gapDue (s : State) : Bool := s.clc.rx != .hunting && s.clc.gap.due s.now

/-- INTER_BYTE_GAP_EXPIRY (R182). -/
def execInterByteGapExpiry (s : State) : Host.Outcome State Fault Refusal :=
  onEvent (fun s => if s.gapDue then discardFrame .gap s else s) s

/-! ### Taking a request -/

/-- The request kinds of Table 12-3, each with its body length; WRITE_PROGRAM's is told by the step count
its body carries. -/
def bodyLength (kind : Byte) (body : List Byte) : Option Nat :=
  match kind.toNat with
  | 0x01 => some 0 | 0x02 => some 0 | 0x03 => some 0 | 0x04 => some 0 | 0x05 => some 5
  | 0x10 => some 0 | 0x11 => some 0 | 0x12 => some 0
  | 0x20 => some 19 | 0x21 => some 1 | 0x22 => some 1 | 0x23 => some 1 | 0x24 => some 2
  | 0x25 => some 1 | 0x26 => some 1 | 0x27 => some 1
  | 0x30 => some 31 | 0x31 => some 1
  | 0x38 => some 12 | 0x39 => some 1 | 0x3A => some 6
  | 0x40 => some (2 + 16 * fieldAt body 1 1) | 0x41 => some 1
  | 0x50 => some 5 | 0x51 => some 0 | 0x52 => some 15 | 0x53 => some 0
  | _ => none

/-- The kind is one of Table 12-3 (R185). -/
def knownKind (kind : Byte) : Bool := (bodyLength kind []).isSome

/-- The kind of a reply: the request's with 0x80 added, or the same kind when it is already 0x80 or above
(R185). -/
def replyKind (kind : Byte) : Byte := if kind.toNat < 0x80 then kind + 0x80 else kind

/-- What a request does: the state it leaves, and its reply body (status byte first). -/
abbrev Effect := State × List Byte

/-- A reply body with no fields after the status byte (R195). -/
def reply (st : Status) (fields : List Byte) : List Byte := statusByte st :: fields

/-- A request refused: nothing changes (R187). -/
def refuse (st : Status) (fields : List Byte) (s : State) : Effect := (s, reply st fields)

/-- The CLC may take a request: the reply queue has room, and no RESET_DEVICE has been taken (R184,
R191). -/
def State.canTake (s : State) : Bool := decide (s.clc.replies.length < 4) && !s.clc.resetAsked

/-- A reply placed at the tail of the reply queue (R184, R185). -/
def putReply (kind tag : Byte) (body : List Byte) (s : State) : State :=
  ({ s with clc := { s.clc with replies := s.clc.replies ++ [⟨replyKind kind, tag, body⟩] } } : State).modClcCtr
    fun c => { c with composed := sat32 (c.composed + 1) }

/-- The request is run: the FORMAT check first, then the owning block (R185). -/
def runRequest (kind tag : Byte) (body : List Byte) (run : List Byte → State → Effect) (s : State) : State :=
  if bodyLength kind body = some body.length then
    let (s1, r) := run body s
    putReply kind tag r s1
  else putReply kind tag (reply .format []) s

/-- The head request leaves the queue (R184). -/
def dropHead (s : State) : State := { s with clc := { s.clc with requests := s.clc.requests.tail } }

/-- A request command. If its request stands at the head of the request queue, the CLC takes it when it
may (R184). Otherwise the command is the request frame's arrival: it joins the queue or is an overrun,
and is taken at once when no other request waits and the CLC may take it (notes/assumptions/6.md). -/
def requestEvent (kind tag : Byte) (body : List Byte) (run : State → State) (s : State) : State :=
  if s.clc.requests.head? = some ⟨kind, tag, body⟩ then
    if s.canTake then run (dropHead s) else s
  else
    let s1 := queueRequest ⟨kind, tag, body⟩ s
    if s.clc.requests = [] ∧ s.canTake then run (dropHead s1) else s1

/-- The whole of a request command of a known kind. -/
def onRequest (kind tag : Byte) (body : List Byte) (run : List Byte → State → Effect) (s : State) :
    Host.Outcome State Fault Refusal :=
  onEvent (requestEvent kind tag body (runRequest kind tag body run)) s

/-- UNKNOWN_REQUEST: a taken request of no known kind is refused with UNKNOWN (R185). A kind that is known
is not this command's. -/
def execUnknownRequest (kind tag : Byte) (body : List Byte) (s : State) : Host.Outcome State Fault Refusal :=
  onEvent (fun s =>
    if knownKind kind then s
    else requestEvent kind tag body (putReply kind tag (reply .unknown [])) s) s

/-! ### The device reset and the control transmitter -/

/-- A device reset: every block takes its reset values (R191, R196). The queue of commands stands outside
the part, and the model's free-value counter goes on. -/
def deviceReset (phase : ResetPhase) (s : State) : State :=
  { State.reset with phase := phase, free := s.free, pending := s.pending }

/-- CTL_TRANSMIT_COMPLETE: the frame has ended and the transmitter is free (R186). When it was the reply of
RESET_DEVICE, the last reply of all, the device reset begins (R191). -/
def execCtlTransmitComplete (s : State) : Host.Outcome State Fault Refusal :=
  onEvent (fun s =>
    if s.clc.resetAsked ∧ s.clc.replies = [] ∧ s.clc.tx.isSome then deviceReset .completing s
    else { s with clc := { s.clc with tx := none } }) s

end Sys2Proof.Machine
end

