-- ==== Sys2Proof/Machine/Responder.lean ====
section
/-! DEFINITION. The Responder Table and classification: Sightings, eviction, aging and Flow Ends
(03_responder_table.md), with the Class Map's lookup (R60, R62). -/

namespace Sys2Proof.Machine

/-! ### Classification -/

/-- A window covers a service number (R60). -/
def Window.covers (w : Window) (service : BitVec 16) : Bool :=
  service >>> w.size.val == w.base >>> w.size.val

/-- The enabled window of a rank that covers a service number (R62). -/
def Cmp.decider (c : Cmp) (rank : Rank) (service : BitVec 16) : Option (Fin 8) :=
  (List.finRange 8).find? fun i => c.windows[i].enable && c.windows[i].rank == rank && c.windows[i].covers service

/-- The window that decides a class: PINNED, then BROAD; none means the default class (R62). -/
def Cmp.classOf (c : Cmp) (service : BitVec 16) : Option (Fin 8) :=
  match c.decider .pinned service with
  | some i => some i
  | none => c.decider .broad service

/-- The class number: the window's, or 8 for DEFAULT. -/
def classNumber : Option (Fin 8) → Fin 9
  | some i => ⟨i.val, by omega⟩
  | none => 8

/-- The class parameters of a deciding window, or of the default class (R62). -/
def Cmp.paramsOf (c : Cmp) : Option (Fin 8) → ClassParams
  | some i => c.windows[i].params
  | none => c.dflt

/-- The match count of the deciding window, or of the default class, rises (R62, R69). -/
def Cmp.hit (w : Option (Fin 8)) (c : Cmp) : Cmp :=
  match w with
  | some i => { c with windows := modAt c.windows i fun x => { x with hits := sat32 (x.hits + 1) } }
  | none => { c with dfltHits := sat32 (c.dfltHits + 1) }

/-! ### Entries -/

/-- The RTB counters changed. -/
def State.modRtbCtr (f : RtbCounters → RtbCounters) (s : State) : State :=
  { s with rtb := { s.rtb with ctr := f s.rtb.ctr } }

/-- An entry put into its slot, the table staying in rising slot order. -/
def insertEntry (i : Slot) (e : Entry) : List (Slot × Entry) → List (Slot × Entry)
  | [] => [(i, e)]
  | x :: l => if i < x.1 then (i, e) :: x :: l else x :: insertEntry i e l

/-- The lowest-numbered empty slot (R38). -/
def Rtb.lowestEmpty (r : Rtb) : Option Slot :=
  (List.finRange 2048).find? fun i => (r.entry? i).isNone

/-- An entry is removed: its slot empties and it leaves its port's arrival list (R43). -/
def Rtb.remove (i : Slot) (r : Rtb) : Rtb :=
  match r.entry? i with
  | none => r
  | some e =>
    { r with
      table := r.table.filter fun x => x.1 ≠ i
      arrival := modAt r.arrival e.port fun l => l.erase i }

/-- An entry removed, in the whole state. -/
def State.removeEntry (i : Slot) (s : State) : State := { s with rtb := s.rtb.remove i }

/-- The age of an entry (R49): it stops at 2^31 - 1. -/
def Entry.age (now : Nat) (e : Entry) : Nat := min 2147483647 (now - e.lastActivity)

/-- Entries in SEEN, BYPASSED and UNGATED age (Table 3-2). -/
def EntryState.ages : EntryState → Bool
  | .seen => true | .bypassed => true | .ungated => true | _ => false

/-- An entry in an aging state whose age has reached the age limit (R49). -/
def State.matured (s : State) (i : Slot) : Bool :=
  match s.rtb.entry? i with
  | some e => e.state.ages && decide (s.rtb.ageLimit ≤ e.age s.now)
  | none => false

/-- The slot to evict: the SEEN entry of greatest age, the lowest-numbered of equals (R47). -/
def oldestSeen (now : Nat) : List (Slot × Entry) → Option (Slot × Entry)
  | [] => none
  | x :: l =>
    match oldestSeen now l with
    | none => if x.2.state = .seen then some x else none
    | some y => if x.2.state = .seen ∧ y.2.age now ≤ x.2.age now then some x else some y

/-! ### Sightings -/

/-- A refresh (R44). -/
def refresh (i : Slot) (s : State) : State :=
  (s.modEntry i fun e => { e with lastActivity := s.now }).modRtbCtr fun c =>
    { c with sightings := sat32 (c.sightings + 1) }

/-- The entry a Sighting creates, under the class that decides (R45). -/
def newEntry (hash : BitVec 32) (p : Port) (ingress : BitVec 6) (service : BitVec 16)
    (w : Option (Fin 8)) (c : ClassParams) (now : Nat) : Entry where
  hash := hash
  port := p
  ingress := ingress
  service := service
  cls := classNumber w
  eligible := c.eligible
  band := c.band
  cap := c.cap
  state := .seen
  gate := none
  dry := none
  overdraft := none
  granted := 0
  lastHeld := none
  firstSeen := now
  lastActivity := now

/-- The entry is created in a slot: classified, placed, and put at the tail of its arrival list (R45). -/
def createEntry (i : Slot) (hash : BitVec 32) (p : Port) (ingress : BitVec 6) (service : BitVec 16)
    (s : State) : State :=
  let w := s.cmp.classOf service
  let e := newEntry hash p ingress service w (s.cmp.paramsOf w) s.now
  ({ s with
      cmp := s.cmp.hit w
      rtb := { s.rtb with
        table := insertEntry i e s.rtb.table
        arrival := modAt s.rtb.arrival p fun l => l ++ [i] } } : State).modRtbCtr fun c =>
    { c with sightings := sat32 (c.sightings + 1), created := sat32 (c.created + 1) }

/-- After an eligible entry has been created: the fan-in event to the PRC and, if the port was in RELIEF
or PAUSED when the Sighting was taken, the arrival to the ADU (R46). -/
def handOver (i : Slot) (p : Port) (was : PortState) (s : State) : State :=
  let s1 := checkOpening p s
  if was = .relief ∨ was = .paused then arrive p i s1 else s1

/-- A Sighting of a new key with an empty slot to take (R45, R46). -/
def learn (hash : BitVec 32) (p : Port) (ingress : BitVec 6) (service : BitVec 16) (s : State) : State :=
  match s.rtb.lowestEmpty with
  | none => s
  | some i =>
    let s1 := createEntry i hash p ingress service s
    if (s.cmp.paramsOf (s.cmp.classOf service)).eligible then handOver i p (s.prcAt p).state s1 else s1

/-- An entry is evicted (R47). -/
def evict (i : Slot) (s : State) : State :=
  (s.removeEntry i).modRtbCtr fun c => { c with evictions := sat32 (c.evictions + 1) }

/-- A Sighting of a new key finds no room (R48). -/
def loseSighting (s : State) : State :=
  let s1 := s.modRtbCtr fun c => { c with lost := sat32 (c.lost + 1) }
  s1.raiseDevice .tableFull s1.rtb.ctr.lost

/-- The RTB takes a Sighting: refresh, create, evict and create, or lose (R44 to R48). -/
def takeSighting (hash : BitVec 32) (p : Port) (ingress : BitVec 6) (service : BitVec 16) (s : State) :
    State :=
  match s.rtb.lookup hash p with
  | some (i, _) => refresh i s
  | none =>
    if s.rtb.table.length < 2048 then learn hash p ingress service s
    else
      match oldestSeen s.now s.rtb.table with
      | some (i, _) => learn hash p ingress service (evict i s)
      | none => loseSighting s

/-- SIGHTING (R45). -/
def execSighting (hash : BitVec 32) (p : Port) (ingress : BitVec 6) (service : BitVec 16) (s : State) :
    Host.Outcome State Fault Refusal :=
  onEvent (arriveRecord (.sighting hash p ingress service) (takeSighting hash p ingress service)) s

/-! ### Flow Ends -/

/-- A record's gate fields do not name the gate the entry holds (R55). -/
def gateMismatch (held named : Option GateRef) : Bool := held.isSome && held != named

/-- A Flow End makes a refund (R54, R163): the record names the entry's gate and epoch, and the port is
in RELIEF or PAUSED. -/
def refunds (held named : Option GateRef) (st : PortState) : Bool :=
  held.isSome && held == named && (st == .relief || st == .paused)

/-- The further effects of a Flow End for an ADMITTED entry, in the order of R54 and R163. -/
def endAdmitted (i : Slot) (p : Port) (held named : Option GateRef) (left : Nat) (s : State) : State :=
  let s1 := if refunds held named (s.prcAt p).state then addToPool p left s else s
  let s2 := (freeGateOf i s1).modAdu p fun a => { a with admitted := a.admitted.erase i }
  let s3 := s2.modEpisode p fun e => { e with completed := sat32 (e.completed + 1) }
  rerate p (refill p (s3.removeEntry i))

/-- The further effects of a Flow End for a WAITING entry (R53). -/
def endWaiting (i : Slot) (p : Port) (s : State) : State :=
  let s1 := (freeGateOf i s).modAdu p fun a => { a with waitQ := a.waitQ.erase i }
  (s1.modEpisode p fun e => { e with endedHeld := sat32 (e.endedHeld + 1) }).removeEntry i

/-- The entry with the key of a Flow End ends, by its state (R52 to R55). -/
def endEntry (i : Slot) (e : Entry) (named : Option GateRef) (left : Nat) (s : State) : State :=
  let s1 := if gateMismatch e.gate named then
      s.modRtbCtr fun c => { c with gateMismatches := sat32 (c.gateMismatches + 1) }
    else s
  match e.state with
  | .admitted => endAdmitted i e.port e.gate named left s1
  | .waiting => endWaiting i e.port s1
  | .released => (freeGateOf i s1).removeEntry i
  | .seen => s1.removeEntry i
  | .bypassed => s1.removeEntry i
  | .ungated => s1.removeEntry i

/-- The RTB takes a Flow End (R52). -/
def takeFlowEnd (hash : BitVec 32) (p : Port) (named : Option GateRef) (left : Nat) (s : State) : State :=
  let s1 := s.modRtbCtr fun c => { c with flowEnds := sat32 (c.flowEnds + 1) }
  match s1.rtb.lookup hash p with
  | none => s1.modRtbCtr fun c => { c with unknownEnds := sat32 (c.unknownEnds + 1) }
  | some (i, e) => endEntry i e named left s1

/-- FLOW_END (R52). -/
def execFlowEnd (hash : BitVec 32) (p : Port) (gate : Option GateRef) (left : BitVec 24) (s : State) :
    Host.Outcome State Fault Refusal :=
  onEvent (arriveRecord (.flowEnd hash p gate left) (takeFlowEnd hash p gate left.toNat)) s

/-! ### Aging -/

/-- The aging event of an entry that has matured (R49). -/
def ageOut (i : Slot) (s : State) : State :=
  if s.matured i then
    (s.removeEntry i).modRtbCtr fun c => { c with agedOut := sat32 (c.agedOut + 1) }
  else s

/-- AGING_EVENT (R49). -/
def execAgingEvent (i : Slot) (s : State) : Host.Outcome State Fault Refusal := onEvent (ageOut i) s

end Sys2Proof.Machine
end

