-- ==== Sys2Proof/Machine/StoreRequests.lean ====
section
/-! DEFINITION. The requests that write and read the device's tables of settings: level sets (R33, R34),
service windows and the default class (R64 to R68), and release programs (R76 to R81). -/

namespace Sys2Proof.Machine

/-! ### Level sets -/

/-- SET_LEVELS: RANGE, then ORDER naming the lowest threshold below the one before it (R33). -/
def setLevels (body : List Byte) (s : State) : Effect :=
  if h : fieldAt body 0 1 < 4 then
    let t := readThresholds body
    match firstDescent t with
    | some i => refuse .order (be 1 i) s
    | none => ({ s with oev := { s.oev with sets := modAt s.oev.sets ⟨_, h⟩ fun _ => t } }, reply .ok [])
  else refuse .range [] s

/-- SET_LEVELS (R33). -/
def execSetLevels (tag : Byte) (body : List Byte) (s : State) : Host.Outcome State Fault Refusal :=
  onRequest 0x30 tag body setLevels s

/-- GET_LEVELS: the fifteen thresholds, T1 first (R34). -/
def getLevels (body : List Byte) (s : State) : Effect :=
  if h : fieldAt body 0 1 < 4 then
    (s, reply .ok ((s.oev.sets[(⟨_, h⟩ : Fin 4)]).toList.flatMap (be 2)))
  else refuse .range [] s

/-- GET_LEVELS (R34). -/
def execGetLevels (tag : Byte) (body : List Byte) (s : State) : Host.Outcome State Fault Refusal :=
  onRequest 0x31 tag body getLevels s

/-! ### Service windows and the default class -/

/-- Two windows overlap: the larger covers the base of the smaller (R65). -/
def Window.overlaps (a b : Window) : Bool :=
  a.base >>> (max a.size.val b.size.val) == b.base >>> (max a.size.val b.size.val)

/-- The lowest-numbered other enabled window of the same rank that a window would overlap (R65). -/
def Cmp.overlapped (c : Cmp) (i : Fin 8) (w : Window) : Option (Fin 8) :=
  (List.finRange 8).find? fun j =>
    j != i && c.windows[j].enable && c.windows[j].rank == w.rank && c.windows[j].overlaps w

/-- The base of a window is a multiple of its size (R64). -/
def Window.aligned (w : Window) : Bool := w.base.toNat % 2 ^ w.size.val == 0

/-- The class parameters as replies carry them: eligible, band, cap. -/
def ClassParams.bytes (c : ClassParams) : List Byte :=
  be 1 (bit c.eligible) ++ be 1 c.band.val ++ be 4 c.cap

/-- A window's fields as replies carry them: enable, base, k, rank, eligible, band, cap (Table 13-8). -/
def Window.bytes (w : Window) : List Byte :=
  be 1 (bit w.enable) ++ be 2 w.base.toNat ++ be 1 w.size.val ++ be 1 w.rank.code ++ w.params.bytes

/-- SET_WINDOW: RANGE, ALIGN, OVERLAP (R64, R65), then the window is replaced and its match count is 0
(R66). -/
def setWindow (body : List Byte) (s : State) : Effect :=
  match readWindow body with
  | .error c => refuse .range (be 1 c) s
  | .ok (i, w) =>
    if !w.aligned then refuse .align [] s
    else
      match if w.enable then s.cmp.overlapped i w else none with
      | some j => refuse .overlap (be 1 j.val) s
      | none =>
        ({ s with cmp := { s.cmp with windows := modAt s.cmp.windows i fun _ => w } },
          reply .ok (be 1 i.val ++ w.bytes))

/-- SET_WINDOW (R66). -/
def execSetWindow (tag : Byte) (body : List Byte) (s : State) : Host.Outcome State Fault Refusal :=
  onRequest 0x38 tag body setWindow s

/-- GET_WINDOW of a window or of the default class, with the match count (R67). -/
def getWindow (body : List Byte) (s : State) : Effect :=
  if h : fieldAt body 0 1 < 8 then
    let w := s.cmp.windows[(⟨_, h⟩ : Fin 8)]
    (s, reply .ok (w.bytes ++ be 4 w.hits))
  else if fieldAt body 0 1 = 8 then
    (s, reply .ok (be 1 0 ++ be 2 0 ++ be 1 0 ++ be 1 0 ++ s.cmp.dflt.bytes ++ be 4 s.cmp.dfltHits))
  else refuse .range [] s

/-- GET_WINDOW (R67). -/
def execGetWindow (tag : Byte) (body : List Byte) (s : State) : Host.Outcome State Fault Refusal :=
  onRequest 0x39 tag body getWindow s

/-- SET_DEFAULT_CLASS: RANGE, then the default class is replaced and its match count is 0 (R68). -/
def setDefaultClass (body : List Byte) (s : State) : Effect :=
  match readDefaultClass body with
  | .error c => refuse .range (be 1 c) s
  | .ok c => ({ s with cmp := { s.cmp with dflt := c, dfltHits := 0 } }, reply .ok c.bytes)

/-- SET_DEFAULT_CLASS (R68). -/
def execSetDefaultClass (tag : Byte) (body : List Byte) (s : State) : Host.Outcome State Fault Refusal :=
  onRequest 0x3A tag body setDefaultClass s

/-! ### Release programs -/

/-- The pool steps in use: the sum of the sixteen lengths (R72). -/
def Pgs.used (g : Pgs) : Nat := (g.programs.toList.map List.length).sum

/-- The case by which a port puts a program in use, the lowest first (R77): episode, standby, armed
configuration (for a request that empties the program). -/
def PrcPort.useCase (q : PrcPort) (prog : ProgNo) (n : Nat) : Option Nat :=
  if (q.state = .relief ∨ q.state = .paused) ∧ q.episode.program = prog then some 0
  else if q.standby = some prog then some 1
  else if n = 0 ∧ q.state ≠ .disarmed ∧ q.config.program = prog then some 2
  else none

/-- The lowest-numbered port that puts a program in use, with its case (R77). -/
def State.inUse (s : State) (prog : ProgNo) (n : Nat) : Option (Port × Nat) :=
  (List.finRange 48).findSome? fun p => ((s.prcAt p).useCase prog n).map fun c => (p, c)

/-- WRITE_PROGRAM: RANGE (R76), IN_USE (R77), NO_ROOM (R78), then the program is replaced (R79, R80). -/
def writeProgram (body : List Byte) (s : State) : Effect :=
  match readProgramBody body with
  | .error (i, c) => refuse .range (be 1 i ++ be 1 c) s
  | .ok (q, steps) =>
    match s.inUse q steps.length with
    | some (p, c) => refuse .inUse (be 1 p.val ++ be 1 c) s
    | none =>
      let rest := s.pgs.used - (s.pgs.programs[q]).length
      if 256 < rest + steps.length then refuse .noRoom (be 2 (256 - rest)) s
      else
        ({ s with pgs := { s.pgs with programs := modAt s.pgs.programs q fun _ => steps } },
          reply .ok (be 1 q.val ++ be 1 steps.length ++ be 2 (256 - (rest + steps.length))))

/-- WRITE_PROGRAM (R79). -/
def execWriteProgram (tag : Byte) (body : List Byte) (s : State) : Host.Outcome State Fault Refusal :=
  onRequest 0x40 tag body writeProgram s

/-- The 16 bytes of a step record (Table 13-9). -/
def Step.bytes (st : Step) : List Byte :=
  be 2 st.pt ++ be 1 (16 * st.res.code + st.kind.code) ++ be 1 st.width ++ be 1 st.fa ++ be 1 st.fb
    ++ be 1 st.lc ++ be 1 st.lt ++ be 4 st.budget ++ be 4 st.guard

/-- READ_PROGRAM: the stored steps and the pool steps in use (R81). -/
def readProgram (body : List Byte) (s : State) : Effect :=
  match programNo (fieldAt body 0 1) with
  | none => refuse .range [] s
  | some q =>
    let steps := s.pgs.programs[q]
    (s, reply .ok (be 1 q.val ++ be 1 steps.length ++ be 2 s.pgs.used ++ steps.flatMap Step.bytes))

/-- READ_PROGRAM (R81). -/
def execReadProgram (tag : Byte) (body : List Byte) (s : State) : Host.Outcome State Fault Refusal :=
  onRequest 0x41 tag body readProgram s

end Sys2Proof.Machine
end

