-- ==== Sys2Proof/Machine/DeviceRequests.lean ====
section
/-! DEFINITION. The general requests: IDENTIFY, RESET_DEVICE, STATUS, TIME, SET_DEVICE and READ_TABLE
(R188 to R192), and the requests of the Episode Record and Notice unit: CLEAR_HISTORY, SET_NOTICE_LEVELS
and READ_FAULT (R172, R173, R175, R179). -/

namespace Sys2Proof.Machine

/-! ### IDENTIFY, TIME, RESET_DEVICE, SET_DEVICE -/

/-- The part code, the seven ASCII characters NF-4812 (R188). -/
def partCode : List Byte := [0x4E, 0x46, 0x2D, 0x34, 0x38, 0x31, 0x32]

/-- IDENTIFY: part code, revision 1, serial number (R188). -/
def identify (_ : List Byte) (s : State) : Effect :=
  (s, reply .ok (partCode ++ be 1 1 ++ be 6 Config.serialNumber.toNat))

/-- IDENTIFY (R188). -/
def execIdentify (tag : Byte) (body : List Byte) (s : State) : Host.Outcome State Fault Refusal :=
  onRequest 0x01 tag body identify s

/-- RESET_DEVICE: the reply OK is composed, no further request is taken, and the waiting requests are
dropped; the reset itself follows the reply (R191). -/
def resetDevice (_ : List Byte) (s : State) : Effect :=
  ({ s with clc := { s.clc with resetAsked := true, requests := [] } }, reply .ok [])

/-- RESET_DEVICE (R191). -/
def execResetDevice (tag : Byte) (body : List Byte) (s : State) : Host.Outcome State Fault Refusal :=
  onRequest 0x02 tag body resetDevice s

/-- TIME: the time base counter (R188). -/
def time (_ : List Byte) (s : State) : Effect := (s, reply .ok (be 4 s.stamp.toNat))

/-- TIME (R188). -/
def execTime (tag : Byte) (body : List Byte) (s : State) : Host.Outcome State Fault Refusal :=
  onRequest 0x04 tag body time s

/-- SET_DEVICE: fault limit and age limit, both clamped (R8, R50, R190). -/
def setDevice (body : List Byte) (s : State) : Effect :=
  let fault := max 1 (fieldAt body 0 1)
  let age := min 1000000 (max 100 (fieldAt body 1 4))
  ({ s with
      flc := { s.flc with faultLimit := fault }
      rtb := { s.rtb with ageLimit := age } }, reply .ok (be 1 fault ++ be 4 age))

/-- SET_DEVICE (R190). -/
def execSetDevice (tag : Byte) (body : List Byte) (s : State) : Host.Outcome State Fault Refusal :=
  onRequest 0x05 tag body setDevice s

/-! ### STATUS -/

/-- The values of R189 after the link state code, the error count and the fault limit, in the order of its
table. -/
def State.statusValues (s : State) : List Nat :=
  let l := s.flc.ctr
  let r := s.rtb.ctr
  let c := s.clc.ctr
  [ l.wellFormed, l.malformed, l.lost, l.discarded, l.recordErrors, l.linkFaults, l.framesSent, l.ordersSent,
    s.rtb.table.length, s.rtb.ageLimit,
    r.sightings, r.created, r.evictions, r.lost, r.agedOut, r.flowEnds, r.unknownEnds, r.gateMismatches,
    s.adu.shortages, s.adu.bypasses, s.adu.ignored,
    s.gpm.free.length, s.gpm.fifo.length,
    s.gpm.binds, s.gpm.frees, s.gpm.validSpent, s.gpm.validHold, s.gpm.staleReports,
    s.cru.overflow,
    s.ern.history.length, s.ern.written, s.ern.dropped, s.ern.pendingSet.length, s.ern.sent,
    s.ern.coalesced, s.ern.suppressed,
    c.received, c.skipped, c.gapErrors, c.crcErrors, c.lengthErrors, c.framingErrors, c.overruns,
    c.composed, c.sent, s.clc.requests.length ]

/-- STATUS: one snapshot of every block (R189, Table 13-8). -/
def status (_ : List Byte) (s : State) : Effect :=
  (s, reply .ok (be 1 s.flc.link.code ++ be 1 s.flc.errCount ++ be 1 s.flc.faultLimit
    ++ s.statusValues.flatMap (be 4)))

/-- STATUS (R189). -/
def execStatus (tag : Byte) (body : List Byte) (s : State) : Host.Outcome State Fault Refusal :=
  onRequest 0x03 tag body status s

/-! ### READ_TABLE -/

/-- A time stamp that the part returns of a time kept unwrapped. -/
def wrapped (t : Nat) : Nat := t % 4294967296

/-- The bytes of a RESPONDER record for an occupied slot (Table 13-10). -/
def Entry.bytes (i : Slot) (e : Entry) : List Byte :=
  padTo 40 (be 2 i.val ++ be 1 (entryFlags e) ++ be 1 e.state.code ++ be 1 e.port.val
    ++ be 1 e.ingress.toNat ++ be 1 e.cls.val ++ be 1 e.band.val ++ be 4 e.hash.toNat
    ++ be 2 e.service.toNat
    ++ be 2 (match e.gate with | some r => r.gate.val | none => 0)
    ++ be 1 (match e.gate with | some r => r.epoch.toNat | none => 0)
    ++ be 3 (match e.lastHeld with | some h => h.toNat | none => 0)
    ++ be 4 e.cap ++ be 4 e.granted ++ be 4 (wrapped e.firstSeen) ++ be 4 (wrapped e.lastActivity))

/-- The RESPONDER record of a slot (R57, Table 13-10). -/
def State.responderRecord (s : State) (n : Nat) : List Byte :=
  match s.rtb.entry? (Fin.ofNat 2048 n) with
  | some e => e.bytes (Fin.ofNat 2048 n)
  | none => padTo 40 (be 2 n)

/-- The GATE record of a gate (R153, Table 13-11). -/
def State.gateRecord (s : State) (n : Nat) : List Byte :=
  let g := s.gpm.gate (Fin.ofNat 1024 n)
  padTo 24 (be 2 n ++ be 1 (bit g.bound.isSome) ++ be 1 g.epoch.toNat
    ++ be 1 (match g.bound with | some k => k.port.val | none => 0)
    ++ be 1 g.mode.code ++ be 1 g.res.code ++ be 1 (bit (s.gpm.fifo.contains (Fin.ofNat 1024 n)))
    ++ be 4 (match g.bound with | some k => k.hash.toNat | none => 0)
    ++ be 2 g.divisor ++ be 1 g.lastAdd.toNat ++ be 1 0 ++ be 4 g.pendingAdd ++ be 4 g.rate)

/-- The HISTORY record of a summary (R172, Table 13-12). -/
def Summary.bytes (x : Summary) : List Byte :=
  padTo 64 (be 4 x.number ++ be 1 x.port.val ++ be 1 x.program.val ++ be 1 x.origin.code
    ++ be 1 x.outcome.code ++ be 4 x.openTime.toNat ++ be 4 x.clock ++ be 1 x.peak
    ++ be 1 x.stepsEntered ++ be 1 x.stepsByGuard ++ be 1 (bit x.standbyDiscarded)
    ++ be 4 x.admissions ++ be 4 x.overdrafts ++ be 4 x.bypassed ++ be 4 x.ungated ++ be 4 x.completed
    ++ be 4 x.endedHeld ++ be 4 x.credited)

/-- The HISTORY record at an index of the ring, oldest first. -/
def State.historyRecord (s : State) (n : Nat) : List Byte :=
  match s.ern.history[n]? with
  | some x => x.bytes
  | none => []

/-- The PORT record of a port (R35, R51, Table 13-13). -/
def State.portTableRecord (s : State) (n : Nat) : List Byte :=
  let p : Port := Fin.ofNat 48 n
  let o := s.oevAt p
  padTo 32 (be 1 p.val ++ be 1 (s.prcAt p).state.code ++ be 1 (bit o.baseline) ++ be 1 o.level
    ++ be 1 o.peak ++ be 1 0 ++ be 2 (s.fanIn p) ++ be 4 o.accepted ++ be 4 o.stale ++ be 4 o.clamps)

/-- What READ_TABLE needs of a table: its size, its per-table maximum, the records that fit a reply, the
fields between the count and the records, and one record (R192, Table 12-2). -/
structure TableView where
  size   : Nat
  most   : Nat
  fit    : Nat
  extra  : List Byte

/-- The four tables (R192, Table 12-2). -/
def State.tableView (s : State) (code : Nat) : Option TableView :=
  match code with
  | 0 => some ⟨2048, 42, (1024 - 6) / 40, []⟩
  | 1 => some ⟨1024, 127, (1024 - 6) / 24, []⟩
  | 2 => some ⟨s.ern.history.length, 31, (1024 - 10) / 64, be 4 s.ern.written⟩
  | 3 => some ⟨48, 31, (1024 - 6) / 32, []⟩
  | _ => none

/-- One record of a table. -/
def State.tableRecord (s : State) (code n : Nat) : List Byte :=
  match code with
  | 0 => s.responderRecord n
  | 1 => s.gateRecord n
  | 2 => s.historyRecord n
  | _ => s.portTableRecord n

/-- READ_TABLE: RANGE of the code, RANGE of the start, then the run with its count clamped (R192). -/
def readTable (body : List Byte) (s : State) : Effect :=
  let code := fieldAt body 0 1
  let start := fieldAt body 1 2
  match s.tableView code with
  | none => refuse .range (be 1 0) s
  | some v =>
    if v.size ≤ start then refuse .range (be 1 1) s
    else
      let count := min (min (fieldAt body 3 2) (v.size - start)) (min v.most v.fit)
      (s, reply .ok (be 1 code ++ be 2 start ++ be 2 count ++ v.extra
        ++ (List.range count).flatMap fun j => s.tableRecord code (start + j)))

/-- READ_TABLE (R192). -/
def execReadTable (tag : Byte) (body : List Byte) (s : State) : Host.Outcome State Fault Refusal :=
  onRequest 0x50 tag body readTable s

/-! ### CLEAR_HISTORY, SET_NOTICE_LEVELS, READ_FAULT -/

/-- CLEAR_HISTORY: the ring is emptied and its counters stay (R172). -/
def clearHistory (_ : List Byte) (s : State) : Effect :=
  ({ s with ern := { s.ern with history := [] } }, reply .ok (be 1 s.ern.history.length))

/-- CLEAR_HISTORY (R172). -/
def execClearHistory (tag : Byte) (body : List Byte) (s : State) : Host.Outcome State Fault Refusal :=
  onRequest 0x51 tag body clearHistory s

/-- The pending set under new levels: entries of a class at level 0 are removed, and the others take their
class's new level (R175). -/
def adjustPending (levels : Vector Nat 15) (l : List Notice) : List Notice :=
  (l.filter fun n => levels[n.cls.code] != 0).map fun n => { n with level := levels[n.cls.code] }

/-- SET_NOTICE_LEVELS (R173, R175). -/
def setNoticeLevels (body : List Byte) (s : State) : Effect :=
  match readNoticeLevels body with
  | .error c => refuse .range (be 1 c) s
  | .ok levels =>
    ({ s with ern := { s.ern with
        levels := levels, pendingSet := adjustPending levels s.ern.pendingSet } },
      reply .ok (levels.toList.flatMap (be 1)))

/-- SET_NOTICE_LEVELS (R173). -/
def execSetNoticeLevels (tag : Byte) (body : List Byte) (s : State) : Host.Outcome State Fault Refusal :=
  onRequest 0x52 tag body setNoticeLevels s

/-- The fields of READ_FAULT: all zero when the snapshot is empty (R179). -/
def faultBytes : Option FaultSnapshot → List Byte
  | some f => be 1 1 ++ be 1 f.kind.code ++ be 2 f.seq.toNat ++ be 1 f.index ++ be 4 f.time.toNat ++ be 4 f.later
  | none => be 1 0 ++ be 1 0 ++ be 2 0 ++ be 1 0 ++ be 4 0 ++ be 4 0

/-- READ_FAULT: the snapshot is returned and emptied (R179). -/
def readFault (_ : List Byte) (s : State) : Effect :=
  ({ s with ern := { s.ern with fault := none } }, reply .ok (faultBytes s.ern.fault))

/-- READ_FAULT (R179). -/
def execReadFault (tag : Byte) (body : List Byte) (s : State) : Host.Outcome State Fault Refusal :=
  onRequest 0x53 tag body readFault s

end Sys2Proof.Machine
end

