-- ==== Sys2Proof/Machine/Expiries.lean ====
section
/-! DEFINITION. The expiries of a port's timers (R92, R94, R100, R101, R104, R116). An expiry is the event
of a running timer whose setting has run out (R21); a command that names a timer which is not due finds
no expiry and changes nothing (notes/assumptions/4.md). -/

namespace Sys2Proof.Machine

/-- The debounce timer of a port in WATCH is due. -/
def State.debounceDue (s : State) (p : Port) : Bool :=
  (s.prcAt p).state == .watch && (s.prcAt p).debounce.due s.now

/-- The stale timer of a port in WATCH, RELIEF, PAUSED or DRAIN is due. -/
def State.staleDue (s : State) (p : Port) : Bool :=
  (s.prcAt p).state.runsStale && (s.prcAt p).stale.due s.now

/-- The guard timer of a port in RELIEF is due. -/
def State.guardDue (s : State) (p : Port) : Bool :=
  (s.prcAt p).state == .relief && (s.prcAt p).guard.due s.now

/-- The drain timer of a port in DRAIN is due. -/
def State.drainDue (s : State) (p : Port) : Bool :=
  (s.prcAt p).state == .drain && (s.prcAt p).drain.due s.now

/-- The cooldown timer of a port in COOLDOWN is due. -/
def State.cooldownDue (s : State) (p : Port) : Bool :=
  (s.prcAt p).state == .cooldown && (s.prcAt p).cooldown.due s.now

/-- DEBOUNCE_EXPIRY: the port qualifies and the opening condition is checked (R92). -/
def execDebounceExpiry (p : Port) (s : State) : Host.Outcome State Fault Refusal :=
  onEvent (fun s =>
    if s.debounceDue p then
      checkOpening p (s.modPrc p fun q => { q with debounce := .stopped, qualified := true })
    else s) s

/-- STALE_EXPIRY: WATCH returns to IDLE (R94); an episode ends STALE after TELEMETRY_STALE (R101). -/
def execStaleExpiry (p : Port) (s : State) : Host.Outcome State Fault Refusal :=
  onEvent (fun s =>
    if s.staleDue p then
      let s1 := s.modPrc p fun q => { q with stale := .stopped }
      if (s.prcAt p).state = .watch then s1.enterPort p .idle
      else endEpisode p .stale (s1.raiseEpisode .telemetryStale p (s.prcAt p).state.code)
    else s) s

/-- GUARD_EXPIRY: the current step ends by guard (R116). -/
def execGuardExpiry (p : Port) (s : State) : Host.Outcome State Fault Refusal :=
  onEvent (fun s =>
    if s.guardDue p then
      let s1 := s.modPrc p fun q => { q with guard := .stopped }
      endStep p true (s1.modEpisode p fun e => { e with stepsByGuard := e.stepsByGuard + 1 })
    else s) s

/-- DRAIN_EXPIRY: DRAIN_STALL is raised and the episode ends with outcome DRAIN_STALL (R100). -/
def execDrainExpiry (p : Port) (s : State) : Host.Outcome State Fault Refusal :=
  onEvent (fun s =>
    if s.drainDue p then
      let s1 := s.modPrc p fun q => { q with drain := .stopped }
      endEpisode p .drainStall (s1.raiseEpisode .drainStall p (s.oevAt p).level)
    else s) s

/-- COOLDOWN_EXPIRY: the port becomes IDLE (R104). -/
def execCooldownExpiry (p : Port) (s : State) : Host.Outcome State Fault Refusal :=
  onEvent (fun s => if s.cooldownDue p then s.enterPort p .idle else s) s

end Sys2Proof.Machine
end

