-- ==== Sys2Proof/Machine/GateReports.lean ====
section
/-! DEFINITION. Gate Spent and Hold Pressure: the GPM's checks (R150, R151) and what the ADU does with a
valid report (R134, R136). -/

namespace Sys2Proof.Machine

/-- A valid Gate Spent at the ADU (R136): an ADMITTED entry becomes dry, and a report for a WAITING or
RELEASED entry is counted as stale. -/
def markDry (i : Slot) (s : State) : State :=
  match s.rtb.entry? i with
  | none => countStale s
  | some e =>
    if e.state = .admitted then s.modEntry i fun x => { x with dry := some true } else countStale s

/-- The GPM takes a Gate Spent (R150, R151). -/
def takeGateSpent (g : GateNo) (epoch : BitVec 4) (echo : BitVec 8) (hash : BitVec 32) (s : State) : State :=
  if s.gpm.spentValid g epoch echo hash then
    let s1 : State := { s with gpm := { s.gpm with validSpent := sat32 (s.gpm.validSpent + 1) } }
    match s.boundSlot g with
    | some i => markDry i s1
    | none => s1
  else countStale s

/-- GATE_SPENT (R151). -/
def execGateSpent (g : GateNo) (epoch : BitVec 4) (echo : BitVec 8) (hash : BitVec 32) (s : State) :
    Host.Outcome State Fault Refusal :=
  onEvent (arriveRecord (.gateSpent g epoch echo hash) (takeGateSpent g epoch echo hash)) s

/-- The GPM takes a Hold Pressure (R150), and the ADU acts on the bound entry (R134). -/
def takeHoldPressure (g : GateNo) (epoch : BitVec 4) (hash : BitVec 32) (held : BitVec 24) (s : State) :
    State :=
  if s.gpm.common g epoch hash then
    let s1 : State := { s with gpm := { s.gpm with validHold := sat32 (s.gpm.validHold + 1) } }
    match s.boundSlot g with
    | some i => holdPressureOn i held s1
    | none => s1
  else countStale s

/-- HOLD_PRESSURE (R150). -/
def execHoldPressure (g : GateNo) (epoch : BitVec 4) (hash : BitVec 32) (held : BitVec 24) (s : State) :
    Host.Outcome State Fault Refusal :=
  onEvent (arriveRecord (.holdPressure g epoch hash held) (takeHoldPressure g epoch hash held)) s

end Sys2Proof.Machine
end

