-- ==== Sys2Proof/Machine/LinkRequests.lean ====
section
/-! DEFINITION. LINK_START, LINK_STOP and LINK_RESET (R9 to R11). Each reply carries the link state code
after the request has been taken (section 1.3). -/

namespace Sys2Proof.Machine

/-- The reply of a link request, with the link state as it then stands (section 1.3). -/
def linkReply (st : Status) (s : State) : Effect := (s, reply st (be 1 s.flc.link.code))

/-- Both sequences and the error count at 0, and the receiver hunting (R9, R10). -/
def clearSequences (s : State) : State :=
  { s with flc := { s.flc with expected := 0, errCount := 0, outSeq := 0, rx := .hunting } }

/-- LINK_START in DOWN (R9); the transmitter treats the idle interval as run out (R16). -/
def linkStart (_ : List Byte) (s : State) : Effect :=
  if s.flc.link = .down then
    let s1 := clearSequences { s with flc := { s.flc with idle := .runOut } }
    linkReply .ok (s1.setLink .syncing)
  else linkReply .state s

/-- LINK_START (R9). -/
def execLinkStart (tag : Byte) (body : List Byte) (s : State) : Host.Outcome State Fault Refusal :=
  onRequest 0x10 tag body linkStart s

/-- The way to STOPPING, and on to DOWN at once when nothing is left to send (R11). -/
def stopLink (s : State) : State := fabPump (s.setLink .stopping)

/-- LINK_STOP by link state (R11). -/
def linkStop (_ : List Byte) (s : State) : Effect :=
  match s.flc.link with
  | .up => linkReply .ok (stopLink (teardown .linkStop s))
  | .syncing => linkReply .ok (stopLink (teardown .linkStop s))
  | .faulted => linkReply .ok (stopLink { s with flc := { s.flc with errCount := 0 } })
  | .down => linkReply .ok s
  | .stopping => linkReply .ok s

/-- LINK_STOP (R11). -/
def execLinkStop (tag : Byte) (body : List Byte) (s : State) : Host.Outcome State Fault Refusal :=
  onRequest 0x11 tag body linkStop s

/-- LINK_RESET by link state (R10). -/
def linkReset (_ : List Byte) (s : State) : Effect :=
  match s.flc.link with
  | .up => linkReply .ok ((clearSequences (teardown .linkReset s)).setLink .syncing)
  | .syncing => linkReply .ok ((clearSequences (teardown .linkReset s)).setLink .syncing)
  | .faulted => linkReply .ok ((clearSequences s).setLink .syncing)
  | .down => linkReply .state s
  | .stopping => linkReply .state s

/-- LINK_RESET (R10). -/
def execLinkReset (tag : Byte) (body : List Byte) (s : State) : Host.Outcome State Fault Refusal :=
  onRequest 0x12 tag body linkReset s

end Sys2Proof.Machine
end

