-- ==== Sys2Proof/Machine/Occupancy.lean ====
section
/-! DEFINITION. The Occupancy Evaluator: accepted and stale reports, the drained delta, levels and peak
levels (R24 to R31). -/

namespace Sys2Proof.Machine

/-- The level of a queue depth: the largest i with Q at or above Ti, or 0 (R29). -/
def levelOf (t : Vector Nat 15) (q : Nat) : Nat :=
  (List.finRange 15).foldl (fun l i => if t[i] ≤ q then i.val + 1 else l) 0

/-- The drained delta before any clamp (R27). -/
def drainedDelta (o : OevPort) (drained : BitVec 32) : Nat := (drained - o.lastDrained).toNat

/-- The sequence gap g of a report (R26). -/
def seqGap (o : OevPort) (seq : BitVec 16) : Nat := (seq - o.lastSeq).toNat

/-- The thresholds a port's reports are measured against (R28). -/
def State.thresholds (s : State) (p : Port) : Vector Nat 15 := s.oev.sets[(s.prcAt p).config.levelSet]

/-- OEV state of a port after an accepted report (R25, R26, R29, R30, R35). -/
def OevPort.accept (seq : BitVec 16) (drained : BitVec 32) (level : Nat) (clamped : Bool) (o : OevPort) :
    OevPort :=
  { o with
    baseline := true
    lastSeq := seq
    lastDrained := drained
    level := level
    peak := max o.peak level
    accepted := sat32 (o.accepted + 1)
    clamps := if clamped then sat32 (o.clamps + 1) else o.clamps }

/-- An accepted report: the OEV completes its own update and hands level and delta to the PRC (R31). -/
def acceptReport (p : Port) (seq cells : BitVec 16) (drained : BitVec 32) (delta : Nat) (s : State) :
    State :=
  let level := levelOf (s.thresholds p) cells.toNat
  reportToPrc p level (min delta maxA)
    (s.modOev p (OevPort.accept seq drained level (decide (maxA < delta))))

/-- The OEV takes a report: a baseline (R25), an accepted report with its delta (R26, R27), or a stale
one (R26). -/
def takeReport (p : Port) (seq cells : BitVec 16) (drained : BitVec 32) (s : State) : State :=
  let o := s.oevAt p
  if o.baseline = false then acceptReport p seq cells drained 0 s
  else if 1 ≤ seqGap o seq ∧ seqGap o seq ≤ 32767 then
    acceptReport p seq cells drained (drainedDelta o drained) s
  else s.modOev p fun o => { o with stale := sat32 (o.stale + 1) }

/-- OCCUPANCY_REPORT (R24). -/
def execOccupancyReport (p : Port) (seq cells : BitVec 16) (drained : BitVec 32) (s : State) :
    Host.Outcome State Fault Refusal :=
  onEvent (arriveRecord (.occupancy p seq cells drained) (takeReport p seq cells drained)) s

end Sys2Proof.Machine
end

