-- ==== Sys2Proof/Machine/PortRequests.lean ====
section
/-! DEFINITION. The requests of one port: SET_PORT, GET_PORT, ARM, DISARM, START_RELIEF, STOP_RELIEF, PAUSE
and RESUME (R85 to R89, R97, R98, R105, R106). -/

namespace Sys2Proof.Machine

/-- The port-number check that comes before any other check of a port request (R85). -/
def withPort (f : Port → State → Effect) (body : List Byte) (s : State) : Effect :=
  match bodyPort body with
  | none => refuse .range [] s
  | some p => f p s

/-- The configuration as SET_PORT and GET_PORT return it, 18 bytes (Table 13-8). -/
def PortConfig.bytes (c : PortConfig) : List Byte :=
  be 1 c.program.val ++ be 1 c.levelSet.val ++ be 1 c.lw ++ be 1 c.ld ++ be 2 c.td ++ be 1 c.fanIn
    ++ be 2 c.ts ++ be 4 c.tdr ++ be 4 c.tc ++ be 1 c.stall.code

/-- SET_PORT on a port in range (R85). -/
def setPortOn (body : List Byte) (p : Port) (s : State) : Effect :=
  if (s.prcAt p).state ≠ .disarmed then refuse .state [] s
  else
    match readPortConfig body with
    | .error i => refuse .range (be 1 i) s
    | .ok c => (s.modPrc p fun q => { q with config := c }, reply .ok c.bytes)

/-- The body of SET_PORT's event. -/
def setPort (body : List Byte) (s : State) : Effect := withPort (setPortOn body) body s

/-- SET_PORT (R85). -/
def execSetPort (tag : Byte) (body : List Byte) (s : State) : Host.Outcome State Fault Refusal :=
  onRequest 0x20 tag body setPort s

/-- The outcome byte of GET_PORT: 255 while an episode runs, the last outcome otherwise, 0 before the first
episode (R86, Table 13-8). -/
def PrcPort.outcomeByte (q : PrcPort) : Nat :=
  if q.state.hasEpisode then 255
  else match q.episode.outcome with | some o => o.code | none => 0

/-- The standby fields of GET_PORT. The program byte of an absent slot is a free value. -/
def standbyBytes (free : Nat) : Option ProgNo → List Byte
  | some q => be 1 1 ++ be 1 q.val
  | none => be 1 0 ++ [Config.absentStandbyProgram free]

/-- The reply fields of GET_PORT (R86, Table 13-8). -/
def State.portRecord (s : State) (p : Port) : List Byte :=
  let q := s.prcAt p
  let o := s.oevAt p
  let e := q.episode
  q.config.bytes ++ be 1 q.state.code ++ be 1 (bit q.qualified) ++ be 2 (s.fanIn p)
    ++ be 1 (bit o.baseline) ++ be 1 o.level ++ be 1 o.peak
    ++ be 4 o.accepted ++ be 4 o.stale ++ be 4 o.clamps
    ++ be 4 e.number ++ be 1 e.origin.code ++ be 1 e.program.val ++ be 1 q.outcomeByte
    ++ be 4 e.openTime.toNat ++ be 1 e.stepIndex ++ be 4 (e.clock.read s.now)
    ++ be 4 (s.cruAt p).a ++ be 4 (s.cruAt p).s
    ++ be 1 (s.admittedCount p) ++ be 1 (s.overdraftCount p) ++ be 2 (s.aduAt p).waitQ.length
    ++ be 4 (s.portRate p) ++ standbyBytes s.free q.standby

/-- GET_PORT on a port in range (R86). It changes nothing; the model's counter of free values advances when
one is drawn. -/
def getPortOn (p : Port) (s : State) : Effect :=
  ({ s with free := s.free + bit (s.prcAt p).standby.isNone }, reply .ok (s.portRecord p))

/-- GET_PORT (R86). -/
def execGetPort (tag : Byte) (body : List Byte) (s : State) : Host.Outcome State Fault Refusal :=
  onRequest 0x21 tag body (withPort getPortOn) s

/-- ARM on a port in range (R88). -/
def armOn (p : Port) (s : State) : Effect :=
  (if (s.prcAt p).state = .disarmed then s.enterPort p .idle else s, reply .ok [])

/-- ARM (R88). -/
def execArm (tag : Byte) (body : List Byte) (s : State) : Host.Outcome State Fault Refusal :=
  onRequest 0x22 tag body (withPort armOn) s

/-- DISARM on a port in range (R89). -/
def disarmOn (p : Port) (s : State) : Effect :=
  let st := (s.prcAt p).state
  (if st.hasEpisode then endEpisode p .disarmed s
    else clearStandby p (if st = .disarmed then s else s.enterPort p .disarmed),
    reply .ok (be 1 st.code))

/-- DISARM (R89). -/
def execDisarm (tag : Byte) (body : List Byte) (s : State) : Host.Outcome State Fault Refusal :=
  onRequest 0x23 tag body (withPort disarmOn) s

/-- START_RELIEF of a non-empty program on an armed port, by the port's state (R105). -/
def startReliefOn (p : Port) (q : ProgNo) (s : State) : Effect :=
  if (s.prcAt p).state.hasEpisode then
    match (s.prcAt p).standby with
    | none => (s.modPrc p fun x => { x with standby := some q }, reply .queued (be 1 q.val))
    | some held => refuse .busy (be 1 held.val) s
  else
    let s1 := openEpisode p .manual q s
    (s1, reply .ok (be 4 (s1.prcAt p).episode.number))

/-- START_RELIEF on a port in range: RANGE, NOT_ARMED and EMPTY in that order (R105). -/
def startReliefChecked (body : List Byte) (p : Port) (s : State) : Effect :=
  match programNo (fieldAt body 1 1) with
  | none => refuse .range [] s
  | some q =>
    if (s.prcAt p).state = .disarmed then refuse .notArmed [] s
    else if (s.pgs.programs[q]).isEmpty then refuse .empty [] s
    else startReliefOn p q s

/-- The body of START_RELIEF's event. -/
def startRelief (body : List Byte) (s : State) : Effect := withPort (startReliefChecked body) body s

/-- START_RELIEF (R105). -/
def execStartRelief (tag : Byte) (body : List Byte) (s : State) : Host.Outcome State Fault Refusal :=
  onRequest 0x24 tag body startRelief s

/-- STOP_RELIEF on a port in range (R106): bit 0 of the reply's flags says that there was no episode, bit 1
that a standby was discarded. -/
def stopReliefOn (p : Port) (s : State) : Effect :=
  let q := s.prcAt p
  (if q.state.hasEpisode then endEpisode p .aborted s else clearStandby p s,
    reply .ok (be 1 (bit (!q.state.hasEpisode) + 2 * bit q.standby.isSome)))

/-- STOP_RELIEF (R106). -/
def execStopRelief (tag : Byte) (body : List Byte) (s : State) : Host.Outcome State Fault Refusal :=
  onRequest 0x25 tag body (withPort stopReliefOn) s

/-- PAUSE on a port in range (R97): the episode clock and the guard are frozen. -/
def pauseOn (p : Port) (s : State) : Effect :=
  if (s.prcAt p).state = .relief then
    ((s.enterPort p .paused).modPrc p fun q =>
      { q with
        guard := q.guard.freeze s.now
        episode := { q.episode with clock := q.episode.clock.halt s.now } }, reply .ok [])
  else refuse .state [] s

/-- PAUSE (R97). -/
def execPause (tag : Byte) (body : List Byte) (s : State) : Host.Outcome State Fault Refusal :=
  onRequest 0x26 tag body (withPort pauseOn) s

/-- RESUME on a port in range (R98): clock and guard run again, and the admitted set is refilled. -/
def resumeOn (p : Port) (s : State) : Effect :=
  if (s.prcAt p).state = .paused then
    let s1 := (s.enterPort p .relief).modPrc p fun q =>
      { q with
        guard := q.guard.thaw s.now
        episode := { q.episode with clock := q.episode.clock.go s.now } }
    (rerateIfChanged p (s.admittedCount p) (refill p s1), reply .ok [])
  else refuse .state [] s

/-- RESUME (R98). -/
def execResume (tag : Byte) (body : List Byte) (s : State) : Host.Outcome State Fault Refusal :=
  onRequest 0x27 tag body (withPort resumeOn) s

end Sys2Proof.Machine
end

