-- ==== Sys2Proof/Machine/Reset.lean ====
section
/-! DEFINITION. The RESET_N pin and the completion of a device reset (R20, R191, R196). -/

namespace Sys2Proof.Machine

/-- RESET_N_ASSERT: a low level on RESET_N resets every block and holds it (R196), in every condition. -/
def execResetNAssert (s : State) : Host.Outcome State Fault Refusal := .next (deviceReset .held s)

/-- RESET_N_RELEASE: the pin returns high, and the reset it held is in progress until it completes (R196). -/
def execResetNRelease (s : State) : Host.Outcome State Fault Refusal :=
  .next (if s.phase = .held then { s with phase := .completing } else s)

/-- DEVICE_RESET_COMPLETE: the reset in progress completes and the time base counts from 0 (R20, R191, R196).
While RESET_N is low no reset completes. -/
def execDeviceResetComplete (s : State) : Host.Outcome State Fault Refusal :=
  .next (if s.phase = .completing then { s with phase := .running, tmb := ⟨0⟩ } else s)

end Sys2Proof.Machine
end

