-- ==== Sys2Proof/Machine/Dispatch.lean ====
section
/-! DEFINITION. The dispatch: one arm for each command, each one direct call of its meaning. -/

namespace Sys2Proof.Machine

/-- A command's effect on everything but the queue. -/
def exec (i : Instr) (s : State) : Host.Outcome State Fault Refusal :=
  match i with
  | .fabricFrameEvent syms => Sys2Proof.Machine.execFabricFrameEvent syms s
  | .occupancyReport port seq cells drained => Sys2Proof.Machine.execOccupancyReport port seq cells drained s
  | .sighting hash port ingress service => Sys2Proof.Machine.execSighting hash port ingress service s
  | .flowEnd hash port gate left => Sys2Proof.Machine.execFlowEnd hash port gate left s
  | .gateSpent gate epoch echo hash => Sys2Proof.Machine.execGateSpent gate epoch echo hash s
  | .holdPressure gate epoch hash held => Sys2Proof.Machine.execHoldPressure gate epoch hash held s
  | .debounceExpiry port => Sys2Proof.Machine.execDebounceExpiry port s
  | .staleExpiry port => Sys2Proof.Machine.execStaleExpiry port s
  | .guardExpiry port => Sys2Proof.Machine.execGuardExpiry port s
  | .drainExpiry port => Sys2Proof.Machine.execDrainExpiry port s
  | .cooldownExpiry port => Sys2Proof.Machine.execCooldownExpiry port s
  | .agingEvent slot => Sys2Proof.Machine.execAgingEvent slot s
  | .idleIntervalExpiry => Sys2Proof.Machine.execIdleIntervalExpiry s
  | .fabricTransmitComplete => Sys2Proof.Machine.execFabricTransmitComplete s
  | .ctlByteReceived b => Sys2Proof.Machine.execCtlByteReceived b s
  | .ctlFramingError => Sys2Proof.Machine.execCtlFramingError s
  | .interByteGapExpiry => Sys2Proof.Machine.execInterByteGapExpiry s
  | .ctlTransmitComplete => Sys2Proof.Machine.execCtlTransmitComplete s
  | .resetNAssert => Sys2Proof.Machine.execResetNAssert s
  | .deviceResetComplete => Sys2Proof.Machine.execDeviceResetComplete s
  | .identify tag body => Sys2Proof.Machine.execIdentify tag body s
  | .resetDevice tag body => Sys2Proof.Machine.execResetDevice tag body s
  | .status tag body => Sys2Proof.Machine.execStatus tag body s
  | .time tag body => Sys2Proof.Machine.execTime tag body s
  | .setDevice tag body => Sys2Proof.Machine.execSetDevice tag body s
  | .linkStart tag body => Sys2Proof.Machine.execLinkStart tag body s
  | .linkStop tag body => Sys2Proof.Machine.execLinkStop tag body s
  | .linkReset tag body => Sys2Proof.Machine.execLinkReset tag body s
  | .setPort tag body => Sys2Proof.Machine.execSetPort tag body s
  | .getPort tag body => Sys2Proof.Machine.execGetPort tag body s
  | .arm tag body => Sys2Proof.Machine.execArm tag body s
  | .disarm tag body => Sys2Proof.Machine.execDisarm tag body s
  | .startRelief tag body => Sys2Proof.Machine.execStartRelief tag body s
  | .stopRelief tag body => Sys2Proof.Machine.execStopRelief tag body s
  | .pause tag body => Sys2Proof.Machine.execPause tag body s
  | .resume tag body => Sys2Proof.Machine.execResume tag body s
  | .setLevels tag body => Sys2Proof.Machine.execSetLevels tag body s
  | .getLevels tag body => Sys2Proof.Machine.execGetLevels tag body s
  | .setWindow tag body => Sys2Proof.Machine.execSetWindow tag body s
  | .getWindow tag body => Sys2Proof.Machine.execGetWindow tag body s
  | .setDefaultClass tag body => Sys2Proof.Machine.execSetDefaultClass tag body s
  | .writeProgram tag body => Sys2Proof.Machine.execWriteProgram tag body s
  | .readProgram tag body => Sys2Proof.Machine.execReadProgram tag body s
  | .readTable tag body => Sys2Proof.Machine.execReadTable tag body s
  | .clearHistory tag body => Sys2Proof.Machine.execClearHistory tag body s
  | .setNoticeLevels tag body => Sys2Proof.Machine.execSetNoticeLevels tag body s
  | .readFault tag body => Sys2Proof.Machine.execReadFault tag body s
  | .unknownRequest kind tag body => Sys2Proof.Machine.execUnknownRequest kind tag body s
  | .resetNRelease => Sys2Proof.Machine.execResetNRelease s

end Sys2Proof.Machine
end

