-- ==== Sys2Proof/Machine/Schedule.lean ====
section
/-! DEFINITION. What the part does when no command waits: its own next event if one is due, and otherwise
the passing of one microsecond (R20, R21; notes/assumptions/3.md). -/

namespace Sys2Proof.Machine

/-- The command by which a block takes a record handed to it. -/
def recordCommand : InRecord → Instr
  | .occupancy p seq cells drained => .occupancyReport p seq cells drained
  | .sighting h p ing srv => .sighting h p ing srv
  | .flowEnd h p g left => .flowEnd h p g left
  | .gateSpent g ep echo h => .gateSpent g ep echo h
  | .holdPressure g ep h held => .holdPressure g ep h held

/-- The command by which the CLC takes a request of the queue, by its kind (Table 12-3). -/
def requestCommand (r : CtlFrame) : Instr :=
  match r.kind.toNat with
  | 0x01 => .identify r.tag r.body
  | 0x02 => .resetDevice r.tag r.body
  | 0x03 => .status r.tag r.body
  | 0x04 => .time r.tag r.body
  | 0x05 => .setDevice r.tag r.body
  | 0x10 => .linkStart r.tag r.body
  | 0x11 => .linkStop r.tag r.body
  | 0x12 => .linkReset r.tag r.body
  | 0x20 => .setPort r.tag r.body
  | 0x21 => .getPort r.tag r.body
  | 0x22 => .arm r.tag r.body
  | 0x23 => .disarm r.tag r.body
  | 0x24 => .startRelief r.tag r.body
  | 0x25 => .stopRelief r.tag r.body
  | 0x26 => .pause r.tag r.body
  | 0x27 => .resume r.tag r.body
  | 0x30 => .setLevels r.tag r.body
  | 0x31 => .getLevels r.tag r.body
  | 0x38 => .setWindow r.tag r.body
  | 0x39 => .getWindow r.tag r.body
  | 0x3A => .setDefaultClass r.tag r.body
  | 0x40 => .writeProgram r.tag r.body
  | 0x41 => .readProgram r.tag r.body
  | 0x50 => .readTable r.tag r.body
  | 0x51 => .clearHistory r.tag r.body
  | 0x52 => .setNoticeLevels r.tag r.body
  | 0x53 => .readFault r.tag r.body
  | _ => .unknownRequest r.kind r.tag r.body

/-- The idle interval timer is due (R16). -/
def State.idleDue (s : State) : Bool :=
  match s.flc.idle with
  | .running start => decide (start + 100 ≤ s.now)
  | _ => false

/-- The first timer of a port that is due. -/
def State.portEvent (s : State) (p : Port) : Option Instr :=
  if s.debounceDue p then some (.debounceExpiry p)
  else if s.staleDue p then some (.staleExpiry p)
  else if s.guardDue p then some (.guardExpiry p)
  else if s.drainDue p then some (.drainExpiry p)
  else if s.cooldownDue p then some (.cooldownExpiry p)
  else none

/-- A timer that is due: of the FLC, of the CLC, then of the ports in rising order. -/
def State.timerEvent (s : State) : Option Instr :=
  if s.idleDue then some .idleIntervalExpiry
  else if s.gapDue then some .interByteGapExpiry
  else (List.finRange 48).findSome? s.portEvent

/-- The part's own next event, if any is due: a record handed over, a request the CLC may take, a timer, or
a matured entry, looked for in that order. -/
def State.ownEvent (s : State) : Option Instr :=
  if s.phase ≠ .running then none
  else
    match s.flc.handed, s.clc.requests with
    | r :: _, _ => some (recordCommand r)
    | [], q :: _ =>
      if s.canTake then some (requestCommand q)
      else s.timerEvent.or ((s.rtb.table.find? fun x => s.matured x.1).map fun x => .agingEvent x.1)
    | [], [] => s.timerEvent.or ((s.rtb.table.find? fun x => s.matured x.1).map fun x => .agingEvent x.1)

/-- One microsecond passes: the time base counts when no reset is in progress (R20). -/
def tick (s : State) : State :=
  if s.phase = .running then { s with tmb := ⟨s.tmb.micros + 1⟩ } else s

end Sys2Proof.Machine
end

