-- ==== Sys2Proof/Machine/Step.lean ====
section
/-! DEFINITION. One step of the part: the command at the front of the queue, or, when none waits, the part's
own next event or the passing of a microsecond. -/

namespace Sys2Proof.Machine

/-- One step. A waiting command is taken from the front of the queue and run with the queue's rest. On an
empty queue the part takes its own next event if one is due, and lets a microsecond pass otherwise
(notes/assumptions/3.md). -/
def step (s : State) : Host.Outcome State Fault Refusal :=
  match s.pending with
  | c :: rest => exec c { s with pending := rest }
  | [] =>
    match s.ownEvent with
    | some c => exec c s
    | none => .next (tick s)

/-- The state with the command that a word spells put at the front of the queue; no row of the table gives
bits, so no word spells one and the state is unchanged. -/
def State.withFetchWord (s : State) (nbits w : Nat) : State :=
  match decodeTableWord nbits w with
  | some c => { s with pending := c :: s.pending }
  | none => s

end Sys2Proof.Machine
end

