-- ==== Sys2Proof/WellFormed.lean ====
section
/-! DEFINITION. The commands that can occur: a request's body fits a control frame (section 12.1), and an
UNKNOWN_REQUEST's kind is none of Table 12-3 (R185). Every other operand is kept in its range by its
type. -/

namespace Sys2Proof

/-- The request a command carries, if it is a request: kind, tag and body (Table 12-3). -/
def requestOf : Instr → Option Machine.CtlFrame
  | .identify t b => some ⟨0x01, t, b⟩
  | .resetDevice t b => some ⟨0x02, t, b⟩
  | .status t b => some ⟨0x03, t, b⟩
  | .time t b => some ⟨0x04, t, b⟩
  | .setDevice t b => some ⟨0x05, t, b⟩
  | .linkStart t b => some ⟨0x10, t, b⟩
  | .linkStop t b => some ⟨0x11, t, b⟩
  | .linkReset t b => some ⟨0x12, t, b⟩
  | .setPort t b => some ⟨0x20, t, b⟩
  | .getPort t b => some ⟨0x21, t, b⟩
  | .arm t b => some ⟨0x22, t, b⟩
  | .disarm t b => some ⟨0x23, t, b⟩
  | .startRelief t b => some ⟨0x24, t, b⟩
  | .stopRelief t b => some ⟨0x25, t, b⟩
  | .pause t b => some ⟨0x26, t, b⟩
  | .resume t b => some ⟨0x27, t, b⟩
  | .setLevels t b => some ⟨0x30, t, b⟩
  | .getLevels t b => some ⟨0x31, t, b⟩
  | .setWindow t b => some ⟨0x38, t, b⟩
  | .getWindow t b => some ⟨0x39, t, b⟩
  | .setDefaultClass t b => some ⟨0x3A, t, b⟩
  | .writeProgram t b => some ⟨0x40, t, b⟩
  | .readProgram t b => some ⟨0x41, t, b⟩
  | .readTable t b => some ⟨0x50, t, b⟩
  | .clearHistory t b => some ⟨0x51, t, b⟩
  | .setNoticeLevels t b => some ⟨0x52, t, b⟩
  | .readFault t b => some ⟨0x53, t, b⟩
  | .unknownRequest k t b => some ⟨k, t, b⟩
  | .fabricFrameEvent _ => none
  | .occupancyReport _ _ _ _ => none
  | .sighting _ _ _ _ => none
  | .flowEnd _ _ _ _ => none
  | .gateSpent _ _ _ _ => none
  | .holdPressure _ _ _ _ => none
  | .debounceExpiry _ => none
  | .staleExpiry _ => none
  | .guardExpiry _ => none
  | .drainExpiry _ => none
  | .cooldownExpiry _ => none
  | .agingEvent _ => none
  | .idleIntervalExpiry => none
  | .fabricTransmitComplete => none
  | .ctlByteReceived _ => none
  | .ctlFramingError => none
  | .interByteGapExpiry => none
  | .ctlTransmitComplete => none
  | .resetNAssert => none
  | .deviceResetComplete => none
  | .resetNRelease => none

/-- The body of a request fits a control frame: at most 1,024 bytes (section 12.1). -/
def bodyFits (i : Instr) : Bool :=
  match requestOf i with
  | some r => decide (r.body.length ≤ 1024)
  | none => true

/-- The kind of an UNKNOWN_REQUEST is not a kind of Table 12-3 (R185). -/
def kindUnknown : Instr → Bool
  | .unknownRequest k _ _ => !Machine.knownKind k
  | _ => true

/-- A command that can occur. -/
def wellFormed (i : Instr) : Bool := bodyFits i && kindUnknown i

end Sys2Proof
end

