-- ==== Sys2Proof/Safety.lean ====
section
/-! DEFINITION. What the claims about the part are stated in: runs of commands, when a request or a record is
taken, what a reply does to the Control Line Controller, and the invariants of the part. -/

namespace Sys2Proof.Machine

/-! ### Runs -/

/-- Commands run one after the other, as far as each answers a next state. -/
def runAll : List Instr → State → Host.Outcome State Fault Refusal
  | [], s => .next s
  | c :: l, s =>
    match exec c s with
    | .next t => runAll l t
    | .fault r => .fault r
    | .refused r => .refused r

/-! ### Transmitters at rest -/

/-- Nothing waits for a free fabric transmitter (R11, R15, R16). -/
abbrev State.laneSettled (s : State) : Prop :=
  s.flc.tx = none → s.flc.link ≠ .down →
    s.gpm.fifo = [] ∧ ¬(s.flc.idle = .runOut ∧ s.flc.link.sendsIdle = true) ∧ s.flc.link ≠ .stopping

/-- Nothing waits for a free control transmitter (R176, R186). -/
abbrev State.lineSettled (s : State) : Prop :=
  s.clc.tx = none → s.clc.replies = [] ∧ s.ern.pendingSet = []

/-- Nothing waits for a free transmitter. -/
abbrev State.settled (s : State) : Prop := s.laneSettled ∧ s.lineSettled

/-! ### Requests and records taken -/

/-- The CLC takes this request at the command: no reset is in progress, the reply queue has room, and the
request is the head of the queue, or arrives at an empty queue (R184, R191). -/
abbrev Takes (s : State) (r : CtlFrame) : Prop :=
  s.phase = .running ∧ s.canTake = true ∧ (s.clc.requests.head? = some r ∨ s.clc.requests = [])

/-- The CLC once a request has been taken and its reply composed: the request has left the queue, and the
reply stands at the tail of the reply queue, whose head begins at once when the transmitter is free (R184
to R186). That the counters saturate is the model's choice (notes/assumptions/21.md). -/
def Clc.answered (r : CtlFrame) (c : Clc) : Clc :=
  let ctr := { c.ctr with
    received := if c.requests = [] then sat32 (c.ctr.received + 1) else c.ctr.received
    composed := sat32 (c.ctr.composed + 1) }
  let q := c.replies ++ [r]
  if c.tx.isSome then { c with requests := c.requests.tail, replies := q, ctr := ctr }
  else { c with
    requests := c.requests.tail
    replies := q.tail
    tx := q.head?.map fun x => ctlFrame x.kind x.tag x.body
    ctr := { ctr with sent := sat32 (ctr.sent + 1) } }

/-- The block that owns a record takes it at the command: no reset is in progress, the link is UP, and the
record is the first handed to its block, or none is (R14). -/
abbrev TakesRecord (s : State) (r : InRecord) : Prop :=
  s.phase = .running ∧ s.flc.link = .up ∧
    (s.flc.handed.find? (fun x => ownerOf x == ownerOf r) = some r ∨
      s.flc.handed.find? (fun x => ownerOf x == ownerOf r) = none)

/-- The state with a record taken out of the records handed over. -/
def State.withoutRecord (r : InRecord) (s : State) : State :=
  { s with flc := { s.flc with handed := s.flc.handed.erase r } }

/-- The 16 bytes of an inbound record at the offsets of Table 13-3, with zero in every other byte. -/
def recordBytes : InRecord → List Byte
  | .occupancy p seq cells drained =>
    padTo 16 (be 1 1 ++ be 1 p.val ++ be 2 seq.toNat ++ be 2 cells.toNat ++ be 4 drained.toNat)
  | .sighting h p ing srv =>
    padTo 16 (be 1 2 ++ be 1 p.val ++ be 4 h.toNat ++ be 1 ing.toNat ++ be 2 srv.toNat)
  | .flowEnd h p (some g) left =>
    padTo 16 (be 1 3 ++ be 1 p.val ++ be 4 h.toNat ++ be 1 1 ++ be 1 g.epoch.toNat ++ be 2 g.gate.val
      ++ be 3 left.toNat)
  | .flowEnd h p none left =>
    padTo 16 (be 1 3 ++ be 1 p.val ++ be 4 h.toNat ++ be 1 0 ++ be 1 0 ++ be 2 0 ++ be 3 left.toNat)
  | .gateSpent g ep echo h =>
    padTo 16 (be 1 4 ++ be 1 0 ++ be 2 g.val ++ be 1 ep.toNat ++ be 1 echo.toNat ++ be 4 h.toNat)
  | .holdPressure g ep h held =>
    padTo 16 (be 1 5 ++ be 1 0 ++ be 2 g.val ++ be 1 ep.toNat ++ be 1 0 ++ be 4 h.toNat ++ be 3 held.toNat)

/-- The bytes of a record by its layout table: each field, written (offset, size, value), reads as its value. -/
def Laid (r : List Byte) (fields : List (Nat × Nat × Nat)) : Prop :=
  ∀ x ∈ fields, fieldAt r x.1 x.2.1 = x.2.2 % 256 ^ x.2.1

/-! ### Malformed frames -/

/-- A run of lane symbols that a hunting receiver judges malformed at its last symbol, with the sequence field if
both of its bytes had been received, and the receiver after it (R1, R6, Table 1-1). -/
inductive MalformedRun : List LaneSym → Option (BitVec 16) → FabRx → Prop
  /-- A record count above 32, detected at the count byte. -/
  | count (n : Byte) (h : 32 < n.toNat) : MalformedRun [.sync, .data n] none .hunting
  /-- A version other than 1, detected at the version byte. -/
  | version (n v : Byte) (h : n.toNat ≤ 32) (hv : v ≠ 1) : MalformedRun [.sync, .data n, .data v] none .hunting
  /-- Four CRC bytes that are not the CRC-32 of the header and the records. -/
  | crc (seq : BitVec 16) (records : List (List Byte)) (c : List Byte) (h : records.length ≤ 32)
      (h16 : ∀ r ∈ records, r.length = 16) (h4 : c.length = 4)
      (hc : readBE c ≠ (crc32 (fabricCovered seq records)).toNat) :
      MalformedRun (.sync :: (fabricCovered seq records ++ c).map .data) (some seq) .hunting
  /-- A sync word inside a frame, which is taken as the start of the next one. -/
  | sync (seq : BitVec 16) (records : List (List Byte)) (n : Nat) (h : records.length ≤ 32)
      (h16 : ∀ r ∈ records, r.length = 16) (hn : n < 8 + 16 * records.length) :
      MalformedRun ((fabricFrame seq records).take (n + 1) ++ [.sync]) (if 4 ≤ n then some seq else none) (.reading [])

/-! ### Notices raised -/

/-- An occurrence raised in the event that led to a state: it waits in the pending set at the level of its class,
or its notice frame has begun; a class at level 0 raises none (R174, R176). -/
def State.announces (t : State) (c : NoticeClass) (sc : Option Port) (episode value : Nat) (time : BitVec 32) : Prop :=
  t.ern.level c ≠ 0 → ∃ n : Notice, n.cls = c ∧ n.scope = sc ∧ n.level = t.ern.level c ∧ n.episode = episode ∧
    n.value = value ∧ n.time = time ∧ (n ∈ t.ern.pendingSet ∨ t.clc.tx = some (ctlFrame 0x7F 0 n.body))

/-! ### Reports accepted -/

/-- The OEV accepts a report of this sequence: as the baseline, or with a sequence gap of 1 to 32,767 (R25,
R26). -/
abbrev OevPort.accepts (o : OevPort) (seq : BitVec 16) : Prop :=
  o.baseline = false ∨ (1 ≤ (seq - o.lastSeq).toNat ∧ (seq - o.lastSeq).toNat ≤ 32767)

/-- The drained delta that an accepted report hands on: 0 for a baseline, and otherwise clamped to 16,777,215
(R25, R27). -/
def OevPort.deltaOf (o : OevPort) (drained : BitVec 32) : Nat :=
  if o.baseline then min 16777215 (drained - o.lastDrained).toNat else 0

/-- The OEV's own update at an accepted report (R25 to R27, R29, R30, R35). -/
def State.afterReport (p : Port) (seq cells : BitVec 16) (drained : BitVec 32) (s : State) : State :=
  let level := levelOf s.oev.sets[(s.prcAt p).config.levelSet] cells.toNat
  s.modOev p fun o => {
    baseline := true, lastSeq := seq, lastDrained := drained, level := level, peak := max o.peak level
    accepted := sat32 (o.accepted + 1), stale := o.stale
    clamps := if o.baseline = true ∧ 16777215 < (drained - o.lastDrained).toNat then sat32 (o.clamps + 1)
      else o.clamps }

/-- What the PRC leaves, before the transmitters, of an accepted report in RELIEF: the stale timer restarted, the
credit of the stages C1 to C3 in S and in the episode's total, then A and the distribution (R96, R113, R157 to
R161). -/
def State.afterCredit (p : Port) (seq cells : BitVec 16) (drained : BitVec 32) (c3 : Nat) (s : State) : State :=
  distribute p (addToPool p c3 (((s.afterReport p seq cells drained).modPrc p fun q => { q with
    stale := .running s.now q.config.ts
    episode := { q.episode with credited := sat32 (q.episode.credited + c3) } }).modCru p fun c =>
      { c with s := sat32 (c.s + c3) }))

/-! ### Entries created -/

/-- The class that decides a service number, with its parameters: the lowest enabled PINNED window that covers it,
else the lowest enabled BROAD one, else the default class (R62). -/
def Cmp.Decides (m : Cmp) (service : BitVec 16) (cls : Fin 9) (c : ClassParams) : Prop :=
  (∃ w : Fin 8, cls.val = w.val ∧ c = m.windows[w].params ∧ m.windows[w].enable = true ∧
    m.windows[w].covers service = true ∧
    (∀ v : Fin 8, m.windows[v].enable = true → m.windows[v].covers service = true →
      m.windows[w].rank = .pinned ∧ (m.windows[v].rank = .pinned → w ≤ v) ∨
      m.windows[w].rank = .broad ∧ m.windows[v].rank = .broad ∧ w ≤ v)) ∨
  (cls = 8 ∧ c = m.dflt ∧ ∀ v : Fin 8, ¬(m.windows[v].enable = true ∧ m.windows[v].covers service = true))

/-- An entry has been created in a slot: it stands at the tail of its port's arrival list, the match count of its
class has risen, and nothing else has changed (R42, R45, R62). -/
structure EntryCreated (i : Slot) (e : Entry) (s t : State) : Prop where
  slot     : t.rtb.entry? i = some e
  others   : ∀ j, j ≠ i → t.rtb.entry? j = s.rtb.entry? j
  arrival  : t.rtb.arrival = s.rtb.arrival.set e.port.val (s.rtb.arrival[e.port] ++ [i]) e.port.isLt
  counters : t.rtb.ctr = { s.rtb.ctr with
    sightings := sat32 (s.rtb.ctr.sightings + 1), created := sat32 (s.rtb.ctr.created + 1) }
  hits     : ∀ w : Fin 8, t.cmp.windows[w] = if e.cls.val = w.val
    then { s.cmp.windows[w] with hits := sat32 (s.cmp.windows[w].hits + 1) } else s.cmp.windows[w]
  dfltHits : t.cmp.dfltHits = if e.cls = 8 then sat32 (s.cmp.dfltHits + 1) else s.cmp.dfltHits
  kept     : t.cmp.dflt = s.cmp.dflt ∧ t.rtb.ageLimit = s.rtb.ageLimit
  rest     : t = { s with rtb := t.rtb, cmp := t.cmp }

/-! ### Invariants of the blocks -/

/-- Pending-order FIFO and free list: neither holds a gate twice, and the free list holds exactly the FREE
gates (R141, R147). -/
def Gpm.listsOk (m : Gpm) : Prop :=
  m.fifo.Nodup ∧ m.free.Nodup ∧ ∀ g, g ∈ m.free ↔ (m.gate g).bound = none

/-- The timers and flags of a port run as Table 6-3 says for its state, and a standby is held only with an
episode (R87, R103). -/
def PrcPort.timersOk (q : PrcPort) : Prop :=
  (q.debounce.active = true → q.state = .watch) ∧
  (q.stale.active = true ↔ q.state.runsStale = true) ∧
  (q.guard.active = true → q.state.runsGuard = true) ∧
  ((∃ a b, q.guard = .frozen a b) → q.state = .paused) ∧
  ((∃ a b, q.guard = .running a b) → q.state = .relief) ∧
  (q.drain.active = true ↔ q.state = .drain) ∧
  (q.cooldown.active = true ↔ q.state = .cooldown) ∧
  (q.qualified = true → q.state = .watch) ∧
  (q.standby.isSome = true → q.state.hasEpisode = true)

/-- Every port's timers are as Table 6-3 says. -/
def Prc.timersOk (c : Prc) : Prop := ∀ p : Port, (c.port[p]).timersOk

/-- A stored configuration holds values of Table 6-1 only, with Ld below Lw (R85). -/
def PortConfig.ok (c : PortConfig) : Prop :=
  1 ≤ c.lw ∧ c.lw ≤ 15 ∧ c.ld < c.lw ∧ c.td ≤ 65535 ∧ 1 ≤ c.fanIn ∧ c.fanIn ≤ 255 ∧ 1 ≤ c.ts ∧ c.ts ≤ 65535 ∧
    1 ≤ c.tdr ∧ c.tdr ≤ 16777215 ∧ c.tc ≤ 16777215

/-- A stored step holds the stored values of Table 5-1 with the dependencies of R74 (R73). -/
def Step.ok (st : Step) : Prop :=
  st.pt ≤ 4095 ∧ 1 ≤ st.width ∧ st.width ≤ 64 ∧ 1 ≤ st.fa ∧ st.fa ≤ 255 ∧ 1 ≤ st.fb ∧ st.fb ≤ 255 ∧
    1 ≤ st.lc ∧ st.lc ≤ 15 ∧ st.budget ≤ 4294967295 ∧ st.lt ≤ 15 ∧ st.guard ≤ 16777215 ∧
    (st.kind ≠ .level → st.lt = 0) ∧ (st.kind = .budget → st.budget ≠ 0) ∧
    (st.kind = .guardOnly → st.guard ≠ 0)

/-- The program store: at most 32 steps a program, 256 in all, each as R73 says (R72). -/
def Pgs.ok (g : Pgs) : Prop :=
  g.used ≤ 256 ∧ ∀ q : ProgNo, (g.programs[q]).length ≤ 32 ∧ ∀ st ∈ g.programs[q], st.ok

/-- A step record of WRITE_PROGRAM is stored as this step: every field as carried at its offset of Table 13-9, but
for the transfer level, which is 0 unless the kind is LEVEL (R73). -/
structure StepStored (r : List Byte) (st : Step) : Prop where
  pt     : st.pt = fieldAt r 0 2
  res    : st.res.code = fieldAt r 2 1 / 16
  kind   : st.kind.code = fieldAt r 2 1 % 16
  width  : st.width = fieldAt r 3 1
  fa     : st.fa = fieldAt r 4 1
  fb     : st.fb = fieldAt r 5 1
  lc     : st.lc = fieldAt r 6 1
  lt     : st.lt = if fieldAt r 2 1 % 16 = 1 then fieldAt r 7 1 else 0
  budget : st.budget = fieldAt r 8 4
  guard  : st.guard = fieldAt r 12 4

/-- The field code of the first of items 3 to 13 of R76 that a step record fails. -/
def failedItem (r : List Byte) : Option Byte :=
  ([(2, decide (4095 < fieldAt r 0 2)), (3, decide (1 < fieldAt r 2 1 / 16)),
    (4, decide (fieldAt r 3 1 = 0 ∨ 64 < fieldAt r 3 1)), (5, decide (fieldAt r 4 1 = 0)),
    (6, decide (fieldAt r 5 1 = 0)), (7, decide (fieldAt r 6 1 = 0 ∨ 15 < fieldAt r 6 1)),
    (8, decide (3 < fieldAt r 2 1 % 16)), (9, decide (fieldAt r 2 1 % 16 = 1 ∧ 15 < fieldAt r 7 1)),
    (10, decide (16777215 < fieldAt r 12 4)), (11, decide (fieldAt r 2 1 % 16 = 0 ∧ fieldAt r 8 4 = 0)),
    (12, decide (fieldAt r 2 1 % 16 = 3 ∧ fieldAt r 12 4 = 0))].find? (·.2)).map (·.1)

/-- A stored cap (R61). -/
def capOk (n : Nat) : Prop := 1024 ≤ n ∧ n ≤ 1048576 ∧ n % 64 = 0

/-- The class map: aligned bases, caps of R61, and no service number covered by two enabled windows of one
rank (R61, R64, R65). -/
def Cmp.ok (c : Cmp) : Prop :=
  capOk c.dflt.cap ∧
  (∀ i : Fin 8, (c.windows[i]).aligned = true ∧ capOk (c.windows[i]).params.cap) ∧
  ∀ i j : Fin 8, i ≠ j → (c.windows[i]).enable = true → (c.windows[j]).enable = true →
    (c.windows[i]).rank = (c.windows[j]).rank →
    ∀ n, ¬((c.windows[i]).covers n = true ∧ (c.windows[j]).covers n = true)

/-- A level set: thresholds of 16 bits, none below the one before it (R28). -/
def levelSetOk (t : Vector Nat 15) : Prop :=
  (∀ i : Fin 15, t[i] ≤ 65535) ∧ ∀ i j : Fin 15, i ≤ j → t[i] ≤ t[j]

/-- The pending set: one entry for each class and scope, port scope or device scope as Table 11-2 says for
the class, each at its class's level, which is not 0, with a repeat count of 1 to 255 (R174, R175). -/
def Ern.pendingOk (e : Ern) : Prop :=
  e.pendingSet.Pairwise (fun a b => a.key < b.key) ∧
  ∀ n ∈ e.pendingSet, n.level = e.level n.cls ∧ n.level ≠ 0 ∧ 1 ≤ n.count ∧ n.count ≤ 255 ∧
    (n.scope = none ↔ n.cls ∈ [NoticeClass.tableFull, .linkState, .linkFault, .recordError, .lineError])

/-- The slots and keys of the table, and the arrival lists: slots in rising order, no key twice, and every
port's list holding the slots of its entries, each once (R38, R42). -/
def Rtb.ok (r : Rtb) : Prop :=
  r.table.Pairwise (fun x y => x.1 < y.1 ∧ ¬(x.2.hash = y.2.hash ∧ x.2.port = y.2.port)) ∧
  ∀ p : Port, (r.arrival[p]).Nodup ∧ ∀ i, i ∈ r.arrival[p] ↔ ∃ e, r.entry? i = some e ∧ e.port = p

/-- The ranges of the FLC, OEV, RTB, CRU, ERN and CLC values that the manual bounds (sections 1.2 and 2.2,
R50, R156, R171, R173, R184, R186). -/
def State.rangesOk (s : State) : Prop :=
  s.flc.errCount ≤ 255 ∧ 1 ≤ s.flc.faultLimit ∧ s.flc.faultLimit ≤ 255 ∧
  100 ≤ s.rtb.ageLimit ∧ s.rtb.ageLimit ≤ 1000000 ∧
  (∀ p, (s.oevAt p).level ≤ (s.oevAt p).peak ∧ (s.oevAt p).peak ≤ 15) ∧
  (∀ p, (s.cruAt p).a ≤ 16777215 ∧ (s.cruAt p).s ≤ 4294967295) ∧
  s.ern.history.length ≤ 32 ∧ (∀ i : Fin 15, s.ern.levels[i] ≤ 15) ∧
  s.clc.requests.length ≤ 4 ∧ s.clc.replies.length ≤ 4

/-- What the settings of the host satisfy: port configurations, level sets, class map and programs. -/
def State.settingsOk (s : State) : Prop :=
  (∀ p, (s.prcAt p).config.ok) ∧ (∀ i : Fin 4, levelSetOk s.oev.sets[i]) ∧ s.cmp.ok ∧ s.pgs.ok

/-! ### Entries, gates and collections together -/

/-- An entry holds a gate in WAITING, ADMITTED and RELEASED (R39). -/
def EntryState.holdsGate : EntryState → Bool
  | .waiting => true | .admitted => true | .released => true | _ => false

/-- The port states in which an entry state occurs (section 3.2, R124). -/
def EntryState.occursIn : EntryState → PortState → Bool
  | .seen, _ => true
  | .waiting, .relief => true
  | .waiting, .paused => true
  | .admitted, .relief => true
  | .admitted, .paused => true
  | .released, .drain => true
  | .bypassed, q => q.hasEpisode
  | .ungated, q => q.hasEpisode
  | _, _ => false

/-- The wanted mode that goes with an entry's state (R140). -/
def EntryState.mode : EntryState → GateMode
  | .waiting => .closed
  | .admitted => .shaped
  | .released => .opened
  | _ => .free

/-- An entry's own fields agree with its state (R39), and only an eligible entry leaves SEEN. -/
def Entry.ok (e : Entry) : Prop :=
  (e.gate.isSome = true ↔ e.state.holdsGate = true) ∧ (e.dry.isSome = true ↔ e.state = .admitted) ∧
    (e.overdraft.isSome = true ↔ e.state = .admitted) ∧ (e.state ≠ .seen → e.eligible = true)

/-- A FREE gate has wanted mode FREE, divisor 0, resolution COARSE and no pending add (R140). -/
def Gate.freeOk (g : Gate) : Prop :=
  g.mode = .free ∧ g.divisor = 0 ∧ g.res = .coarse ∧ g.pendingAdd = 0

/-- Entries, gates and collections agree: every entry's gate is BOUND to it at its epoch with the mode of the
entry's state, every BOUND gate is held by the entry it names, FREE gates are as R140 says, the wait queue
and the admitted set of a port hold exactly its WAITING and ADMITTED entries, each once, and no entry state
occurs in a port state that has no place for it (R39, R123, R124, R140, R141). -/
structure State.booksOk (s : State) : Prop where
  table    : s.rtb.ok
  lists    : s.gpm.listsOk
  entries  : ∀ i e, s.rtb.entry? i = some e → e.ok ∧ e.state.occursIn (s.prcAt e.port).state = true
  held     : ∀ i e r, s.rtb.entry? i = some e → e.gate = some r →
    (s.gpm.gate r.gate).bound = some ⟨e.hash, e.port⟩ ∧ (s.gpm.gate r.gate).epoch = r.epoch ∧
      (s.gpm.gate r.gate).mode = e.state.mode
  bound    : ∀ g k, (s.gpm.gate g).bound = some k →
    ∃ i e r, s.rtb.entry? i = some e ∧ e.hash = k.hash ∧ e.port = k.port ∧ e.gate = some r ∧ r.gate = g
  unbound  : ∀ g, (s.gpm.gate g).bound = none → (s.gpm.gate g).freeOk
  waiting  : ∀ p, (s.aduAt p).waitQ.Nodup ∧
    ∀ i, i ∈ (s.aduAt p).waitQ ↔ ∃ e, s.rtb.entry? i = some e ∧ e.port = p ∧ e.state = .waiting
  admitted : ∀ p, (s.aduAt p).admitted.Nodup ∧
    ∀ i, i ∈ (s.aduAt p).admitted ↔ ∃ e, s.rtb.entry? i = some e ∧ e.port = p ∧ e.state = .admitted

/-! ### The collections of a port -/

/-- The eligible entries of a port in a state, band 0 first and in arrival order within a band (R123, R129). -/
def State.inBandOrder (s : State) (p : Port) (st : EntryState) : List Slot :=
  (List.range 4).flatMap fun b => (s.rtb.arrival[p]).filter fun i =>
    match s.rtb.entry? i with
    | some e => e.eligible && e.state == st && e.band.val == b
    | none => false

/-- The bounds and the order of the collections: a wait queue holds at most 256 members, band 0 at the head and in
arrival order within a band; an admitted set holds at most 72 members, at most 8 of them with the overdraft mark
and at most 64 without; and a port in RELIEF has k at or above W or an empty wait queue (R123, R124, R132). -/
structure State.queuesOk (s : State) : Prop where
  order    : ∀ p, (s.aduAt p).waitQ = s.inBandOrder p .waiting
  waiting  : ∀ p, (s.aduAt p).waitQ.length ≤ 256
  admitted : ∀ p, s.admittedCount p ≤ 72 ∧ s.overdraftCount p ≤ 8 ∧ s.admittedCount p ≤ 64 + s.overdraftCount p
  filled   : ∀ p, (s.prcAt p).state = .relief →
    (s.currentStep p).width ≤ s.admittedCount p ∨ (s.aduAt p).waitQ = []

/-! ### Orders on their way -/

/-- The gates that the entries of a port hold, in the order of its arrival list (R138). -/
def State.portGates (s : State) (p : Port) : List GateNo := (s.rtb.arrival[p]).filterMap s.gateOf

/-- Two records of a gate have the same binding and the same wanted state (R140, R145). -/
def Gate.sameWanted (g h : Gate) : Prop :=
  g.epoch = h.epoch ∧ g.bound = h.bound ∧ g.mode = h.mode ∧ g.divisor = h.divisor ∧ g.res = h.res

/-- The end of an event that has left the Gate Pool Manager as `m`, between `s`, the state it found, and `t`: where the
lane is free and a gate stands in the FIFO, an order frame has begun with the first 32, each order composed from its
gate's record in `m`, and the others wait; otherwise all wait (R15, R147, R148). What `takeBatch` and `orders` do is
said in `OrdersCarryTheRecord`. -/
def State.laneTakes (s : State) (m : Gpm) (t : State) : Prop :=
  if s.flc.tx = none ∧ s.flc.link ≠ .down ∧ m.fifo ≠ [] then
    t.gpm = m.takeBatch ∧ t.flc.tx = some (fabricFrame s.flc.outSeq (m.orders.map GateOrder.bytes))
  else t.gpm = m

/-- The gates that an event has bound, freed or given another mode, divisor or resolution are on their way, between
`s`, the state it found, and `t`: those absent from the FIFO have joined its tail as `added`, each once, those in it
keep their place, no other gate has joined it, and a free lane then takes its first 32 (R15, R145, R147). -/
def OrdersMade (added : List GateNo) (s t : State) : Prop :=
  added.Nodup ∧
  (∀ g, g ∈ added ↔ g ∉ s.gpm.fifo ∧ ¬(t.gpm.gate g).sameWanted (s.gpm.gate g)) ∧
  ∃ m : Gpm, m.fifo = s.gpm.fifo ++ added ∧ s.laneTakes m t

/-! ### Refill and re-rating -/

/-- Every admitted gate of a port has the divisor of the current step for the present k, and its resolution (R111,
R133, R165). -/
def State.rated (t : State) (p : Port) : Prop :=
  ∀ i ∈ (t.aduAt p).admitted, ∃ g, t.gateOf i = some g ∧ (t.gpm.gate g).mode = .shaped ∧
    (t.gpm.gate g).res = (t.currentStep p).res ∧
    (t.gpm.gate g).divisor = min 4095 (((t.currentStep p).pt + 1) * t.admittedCount p - 1)

/-- How many members a refill admits: in RELIEF the width less k, as far as the queue goes, and none in the other
states (R132). -/
def State.refillCount (t : State) (p : Port) (k : Nat) (queue : List Slot) : Nat :=
  if (t.prcAt p).state = .relief then min queue.length ((t.currentStep p).width - k) else 0

/-- Refill and re-rating have been made: of a wait queue, the members that the width lets in have joined the members
kept, in queue order, every admitted gate has the divisor for the new k, and the order of every gate that has changed
is on its way (R111, R132, R133, R145, R147): between `s`, the state before, and `t`. -/
structure Refilled (p : Port) (kept queue : List Slot) (s t : State) : Prop where
  admitted : (t.aduAt p).admitted = kept ++ queue.take (t.refillCount p kept.length queue)
  waiting  : (t.aduAt p).waitQ = queue.drop (t.refillCount p kept.length queue)
  rated    : t.rated p
  orders   : ∃ added, OrdersMade added s t

/-- The counts of an episode after `n` admissions without the overdraft mark (R125). -/
def Episode.admitting (n : Nat) (e : Episode) : Episode :=
  if n = 0 then e
  else { e with admissions := sat32 (e.admissions + n), overdrafts := sat32 e.overdrafts }

/-! ### Episodes -/

/-- What a change of one port leaves alone: every other port's relief state, collections, credit and OEV state,
every entry of another port, and the class map, programs, level sets and time (R95, R102). -/
def OthersKept (p : Port) (s t : State) : Prop :=
  (∀ q, q ≠ p → t.prcAt q = s.prcAt q ∧ t.aduAt q = s.aduAt q ∧ t.cruAt q = s.cruAt q ∧ t.oevAt q = s.oevAt q) ∧
  (∀ i e, s.rtb.entry? i = some e → e.port ≠ p → t.rtb.entry? i = some e) ∧
  (t.prcAt p).config = (s.prcAt p).config ∧ t.rtb.ageLimit = s.rtb.ageLimit ∧ t.rtb.ctr = s.rtb.ctr ∧
  t.oev.sets = s.oev.sets ∧ t.cmp = s.cmp ∧ t.pgs = s.pgs ∧ t.tmb = s.tmb ∧ t.phase = s.phase

/-- An episode has been opened on a port (R95, R110, R111, R122, R129, R147): between `s`, the state the opening
finds, and `t`. The fill takes the eligible SEEN entries, band 0 first and in arrival order within a band. -/
structure EpisodeOpened (p : Port) (o : Origin) (q : ProgNo) (s t : State) : Prop where
  number   : t.prc.episodeCounter = nextEpisodeNumber s.prc.episodeCounter
  record   : (t.prcAt p).episode =
    { Episode.reset with
      number := t.prc.episodeCounter, origin := o, program := q, openTime := s.stamp
      clock := ⟨0, some s.now⟩, stepsEntered := 1, admissions := t.admittedCount p
      bypassed := t.rtb.table.countP fun x => x.2.port == p && x.2.state == .bypassed
      ungated := t.rtb.table.countP fun x => x.2.port == p && x.2.state == .ungated }
  state    : (t.prcAt p).state = .relief ∧ (t.prcAt p).qualified = false
  timers   : (t.prcAt p).debounce = .stopped ∧ (t.prcAt p).drain = .stopped ∧ (t.prcAt p).cooldown = .stopped ∧
    (t.prcAt p).stale = (if (s.prcAt p).stale.active then (s.prcAt p).stale
      else .running s.now (s.prcAt p).config.ts) ∧
    (t.prcAt p).guard = (if (t.currentStep p).guard = 0 then .stopped
      else .running s.now (t.currentStep p).guard)
  peak     : t.oevAt p = { s.oevAt p with peak := (s.oevAt p).level }
  credit   : t.cruAt p = ⟨0, 0⟩
  filled   : t.admittedCount p ≤ (t.currentStep p).width ∧
    (t.admittedCount p = (t.currentStep p).width ∨ (t.aduAt p).waitQ = []) ∧ (t.aduAt p).waitQ.length ≤ 256
  taken    : ∀ i e, s.rtb.entry? i = some e → e.port = p → e.eligible = true → e.state = .seen →
    ∃ e', t.rtb.entry? i = some e' ∧ e'.state ≠ .seen ∧ e'.granted = 0
  order    : ((t.aduAt p).admitted ++ (t.aduAt p).waitQ).Sublist (s.inBandOrder p .seen) ∧
    ((s.inBandOrder p .seen).length ≤ s.gpm.free.length →
      (t.aduAt p).admitted = (s.inBandOrder p .seen).take (t.currentStep p).width ∧
      (t.aduAt p).waitQ = ((s.inBandOrder p .seen).drop (t.currentStep p).width).take 256)
  rated    : t.rated p
  orders   : ∃ added, OrdersMade added s t
  notices  : t.announces .episodeStep (some p) t.prc.episodeCounter 0 s.stamp ∧
    t.announces .episodeOpen (some p) t.prc.episodeCounter (q.val + if o = .manual then 128 else 0) s.stamp
  history  : t.ern.history = s.ern.history ∧ t.ern.written = s.ern.written
  others   : OthersKept p s t

/-- The gates of a port have been freed by its episode's end, between the Gate Pool Manager `a` it finds and `b`: each
is FREE with the epoch and the last add number it had, they have joined the tail of the free list in the order of the
arrival list, those absent from the FIFO have joined its tail in that order, and nothing else has changed (R41, R102,
R138, R144, R147). -/
structure GatesFreed (held : List GateNo) (a b : Gpm) : Prop where
  freed  : ∀ g ∈ held, b.gate g = { a.gate g with
    bound := none, mode := .free, divisor := 0, res := .coarse, pendingAdd := 0 }
  others : ∀ g, g ∉ held → b.gate g = a.gate g
  lists  : b.free = a.free ++ held ∧ b.fifo = a.fifo ++ held.filter (· ∉ a.fifo)
  count  : b.frees = if held = [] then a.frees else sat32 (a.frees + held.length)
  rest   : b = { a with gates := b.gates, free := b.free, fifo := b.fifo, frees := b.frees }

/-- An episode has ended on a port with an outcome, and the port stands in `next` with an empty standby slot
(R41, R102, R103, R138, R144): between `s`, the state the end finds, and `t`, with `m` as the Gate Pool Manager that
the end leaves, before a free lane takes from its FIFO. -/
structure EpisodeEnded (p : Port) (o : EpisodeOutcome) (next : PortState) (s : State) (m : Gpm) (t : State) : Prop where
  state    : (t.prcAt p).state = next ∧ (t.prcAt p).standby = none
  timer    : next = .cooldown → (t.prcAt p).cooldown = .running s.now (s.prcAt p).config.tc
  gates    : GatesFreed (s.portGates p) s.gpm m
  record   : (t.prcAt p).episode =
    { (s.prcAt p).episode with
      clock := ⟨(s.prcAt p).episode.clock.read s.now, none⟩, outcome := some o
      standbyDiscarded := (s.prcAt p).standby.isSome && !letsStandbyStart o (s.prcAt p).config.stall }
  returned : ∀ i e, s.rtb.entry? i = some e → e.port = p →
    t.rtb.entry? i = some { e with state := .seen, gate := none, dry := none, overdraft := none }
  emptied  : t.aduAt p = ⟨[], []⟩ ∧ t.cruAt p = ⟨0, 0⟩
  summary  : t.ern.written = sat32 (s.ern.written + 1) ∧
    t.ern.history.getLast? = some ((t.prcAt p).episode.summary p o (s.oevAt p).peak)
  counter  : t.prc.episodeCounter = s.prc.episodeCounter ∧ t.oev = s.oev
  notice   : t.announces .episodeEnd (some p) (s.prcAt p).episode.number
    (o.code + if (t.prcAt p).episode.standbyDiscarded then 128 else 0) s.stamp
  others   : OthersKept p s t

/-- The current step of a port in RELIEF has ended, by its guard or by its condition (R99, R110 to R112, R115, R116,
R121, R122, R137, R145, R147): between `s`, the state in which it ends, and `t`. -/
structure StepEnded (p : Port) (byGuard : Bool) (s t : State) : Prop where
  others : OthersKept p s t
  kept   : t.oev = s.oev ∧ (t.prcAt p).stale = (s.prcAt p).stale ∧ (t.prcAt p).standby = (s.prcAt p).standby
  next   : (s.prcAt p).episode.stepIndex + 1 < s.programLength (s.prcAt p).episode.program →
    (t.prcAt p).state = .relief ∧ t.cruAt p = ⟨(s.cruAt p).a, 0⟩ ∧
    (t.prcAt p).guard = (if (t.currentStep p).guard = 0 then .stopped
      else .running s.now (t.currentStep p).guard) ∧
    Refilled p (s.aduAt p).admitted (s.aduAt p).waitQ s t ∧
    (t.prcAt p).episode = Episode.admitting (t.refillCount p (s.admittedCount p) (s.aduAt p).waitQ)
      { (s.prcAt p).episode with
        stepIndex := (s.prcAt p).episode.stepIndex + 1, stepsEntered := (s.prcAt p).episode.stepsEntered + 1 } ∧
    t.announces .episodeStep (some p) (s.prcAt p).episode.number
      ((s.prcAt p).episode.stepIndex + 1 + if byGuard then 128 else 0) s.stamp
  drain  : ¬(s.prcAt p).episode.stepIndex + 1 < s.programLength (s.prcAt p).episode.program →
    (t.prcAt p).state = .drain ∧ t.cruAt p = s.cruAt p ∧ (t.prcAt p).guard = .stopped ∧
    (t.prcAt p).drain = .running s.now (s.prcAt p).config.tdr ∧ t.aduAt p = ⟨[], []⟩ ∧
    (t.prcAt p).episode = (s.prcAt p).episode ∧
    OrdersMade ((s.portGates p).filter (· ∉ s.gpm.fifo)) s t ∧
    ∀ i e, s.rtb.entry? i = some e → e.port = p →
      if e.state = .waiting ∨ e.state = .admitted then
        t.rtb.entry? i = some { e with state := .released, dry := none, overdraft := none } ∧
        ∃ r, e.gate = some r ∧ (t.gpm.gate r.gate).bound = some ⟨e.hash, e.port⟩ ∧
          t.gpm.gate r.gate = { s.gpm.gate r.gate with mode := .opened, pendingAdd := 0 }
      else t.rtb.entry? i = some e

/-! ### The teardown -/

/-- The summaries that a teardown appends, in ascending port order (R17, R107). -/
def teardownSummaries (o : EpisodeOutcome) (s t : State) : List Summary :=
  ((List.finRange 48).filter fun p => (s.prcAt p).state.hasEpisode).map fun p =>
    (t.prcAt p).episode.summary p o (s.oevAt p).peak

/-- The teardown of Table 1-4 has been run with an outcome (R17, R36, R58, R107, R154, R156): between `s` and
`t`. -/
structure TornDown (o : EpisodeOutcome) (s t : State) : Prop where
  ports    : ∀ p, (t.prcAt p).state = (if (s.prcAt p).state = .disarmed then .disarmed else .idle) ∧
    (t.prcAt p).standby = none ∧ (t.prcAt p).config = (s.prcAt p).config
  episodes : ∀ p, (t.prcAt p).episode =
    if (s.prcAt p).state.hasEpisode then { (s.prcAt p).episode with
      clock := ⟨(s.prcAt p).episode.clock.read s.now, none⟩, outcome := some o
      standbyDiscarded := (s.prcAt p).standby.isSome }
    else (s.prcAt p).episode
  history  : s.ern.history.length ≤ 32 → t.ern.history =
    (s.ern.history ++ teardownSummaries o s t).drop (s.ern.history.length + (teardownSummaries o s t).length - 32)
  written  : t.ern.written = if teardownSummaries o s t = [] then s.ern.written
    else sat32 (s.ern.written + (teardownSummaries o s t).length)
  notices  : ∀ p, (s.prcAt p).state.hasEpisode = true → t.announces .episodeEnd (some p)
    (s.prcAt p).episode.number (o.code + if (s.prcAt p).standby.isSome then 128 else 0) s.stamp
  tables   : t.rtb.table = [] ∧ (∀ p : Port, t.rtb.arrival[p] = []) ∧ (∀ p, t.aduAt p = ⟨[], []⟩) ∧
    (∀ p, t.cruAt p = ⟨0, 0⟩) ∧ t.flc.handed = []
  occupancy : ∀ p, t.oevAt p = { s.oevAt p with
    baseline := false, lastSeq := 0, lastDrained := 0, level := 0, peak := 0 }
  gates    : (∀ g, (t.gpm.gate g).bound = none ∧ (t.gpm.gate g).mode = .free) ∧ ∀ g, g ∈ t.gpm.free
  kept     : t.rtb.ctr = s.rtb.ctr ∧ t.rtb.ageLimit = s.rtb.ageLimit ∧ t.oev.sets = s.oev.sets ∧ t.cmp = s.cmp ∧
    t.pgs = s.pgs ∧ t.prc.episodeCounter = s.prc.episodeCounter ∧ t.cru.overflow = s.cru.overflow ∧
    t.tmb = s.tmb ∧ t.phase = s.phase

/-- The gates that a teardown frees: port by port in ascending order, in the order of the arrival list (R154). -/
def State.heldGates (s : State) : List GateNo :=
  (List.finRange 48).flatMap s.portGates

/-- Every gate freed by a teardown has joined the tail of the free list and, if it was absent from it, the tail of
the pending-order FIFO, and a free lane has begun an order frame with the first 32 of the FIFO (R15, R154). -/
def FreeOrdersMade (s t : State) : Prop :=
  t.gpm.free = s.gpm.free ++ s.heldGates ∧
  t.gpm.fifo = (s.gpm.fifo ++ s.heldGates.filter (· ∉ s.gpm.fifo)).drop (if s.flc.tx = none then 32 else 0) ∧
  (s.flc.tx = none → s.gpm.fifo ++ s.heldGates ≠ [] → ∃ seq : BitVec 16, t.flc.tx = some (fabricFrame seq
    (((s.gpm.fifo ++ s.heldGates.filter (· ∉ s.gpm.fifo)).take 32).map fun g => ((t.gpm.gate g).order g).bytes)))

end Sys2Proof.Machine
end

