-- ==== Sys2Proof/Certificates/Slice0/Obligations.lean ====
section
/-! DEFINITION. The statements for the provers. Each docstring names the rule of spec/ that its statement
formalises. A premise `laneSettled`, `settled`, `timersOk`, `booksOk` or the like is an invariant of the part,
stated of every step in this file and of the reset state in `ResetMeetsInvariants`. `Takes` and `TakesRecord`
say when a command is the event that takes its request or its record (notes/assumptions/6.md and 5.md),
`Clc.answered` moves the counters of the CLC, which stop at their largest value by the model's choice
(notes/assumptions/21.md), and `Config.serialNumber` is a free value (notes/assumptions/2.md). -/

open Sys2Proof Sys2Proof.Machine

/-! ### The machine -/

/-- A waiting command is taken from the front of the queue and run with the queue's rest. -/
def Obligations.FrontCommandRuns : Prop :=
  ∀ (c : Instr) (rest : List Instr) (s : State),
    step { s with pending := c :: rest } = exec c { s with pending := rest }

/-- On an empty queue the part runs its own next event, and otherwise a microsecond passes, which raises the
32-bit counter by 1 (R20); while a reset is in progress nothing happens. That a step stands for a microsecond
is the model's choice (notes/assumptions/3.md). -/
def Obligations.EmptyQueueStep : Prop :=
  ∀ s : State, s.pending = [] →
    (∀ c, s.ownEvent = some c → step s = exec c s) ∧
    (s.phase = .running → s.ownEvent = none →
      ∃ t, step s = .next t ∧ t = { s with tmb := t.tmb } ∧ t.stamp = s.stamp + 1 ∧ t.now = s.now + 1) ∧
    (s.phase ≠ .running → step s = .next s)

/-- Every command answers a next state in every state, and leaves the queue of commands alone. That no command stops
is read from the rules as a whole, and the queue is the model's own: the model's choices (notes/assumptions/18.md
and 17.md). -/
def Obligations.EveryCommandCompletes : Prop :=
  ∀ (c : Instr) (s : State), ∃ t, exec c s = .next t ∧ t.pending = s.pending

/-- What a device reset leaves in every block (R19, R37, R59, R70, R82, R108, R139, R155, R156, R180, R193),
with the time base at 0 (R20). The empty queue of commands is the model's choice (notes/assumptions/17.md); that no
record handed over waits, and the items of the episode record that GET_PORT does not show, are values the model
deduces (notes/assumptions/20.md). -/
def Obligations.ResetValues : Prop :=
  let s := State.reset
  (s.phase = .running ∧ s.tmb.micros = 0 ∧ s.pending = []) ∧
  (s.flc.link = .down ∧ s.flc.rx = .hunting ∧ s.flc.expected = 0 ∧ s.flc.errCount = 0 ∧ s.flc.faultLimit = 8 ∧
    s.flc.outSeq = 0 ∧ s.flc.idle = .stopped ∧ s.flc.tx = none ∧ s.flc.handed = [] ∧
    s.flc.ctr = ⟨0, 0, 0, 0, 0, 0, 0, 0⟩) ∧
  ((∀ (k : Fin 4) (i : Fin 15), s.oev.sets[k][i] = 4096 * (i.val + 1)) ∧
    ∀ p, s.oevAt p = ⟨false, 0, 0, 0, 0, 0, 0, 0⟩) ∧
  ((∀ i, s.rtb.entry? i = none) ∧ (∀ p : Port, s.rtb.arrival[p] = []) ∧ s.rtb.ageLimit = 20000 ∧
    s.rtb.ctr = ⟨0, 0, 0, 0, 0, 0, 0, 0⟩ ∧ ∀ p, s.fanIn p = 0) ∧
  ((∀ i : Fin 8, s.cmp.windows[i] = ⟨false, 0, 0, .broad, ⟨true, 3, 65536⟩, 0⟩) ∧
    s.cmp.dflt = ⟨true, 3, 65536⟩ ∧ s.cmp.dfltHits = 0) ∧
  (s.pgs.programs[(0 : ProgNo)] = [⟨31, .coarse, 4, 1, 2, 13, 0, .level, 6, 2000⟩,
      ⟨15, .coarse, 8, 1, 1, 14, 0, .queueEmpty, 0, 4000⟩] ∧
    (∀ q : ProgNo, q ≠ 0 → s.pgs.programs[q] = []) ∧ s.pgs.used = 2) ∧
  ((∀ p, (s.prcAt p).config = ⟨0, 0, 8, 2, 50, 8, 100, 2000, 500, .cooldown⟩ ∧ (s.prcAt p).state = .disarmed ∧
      (s.prcAt p).qualified = false ∧ (s.prcAt p).debounce = .stopped ∧ (s.prcAt p).stale = .stopped ∧
      (s.prcAt p).guard = .stopped ∧ (s.prcAt p).drain = .stopped ∧ (s.prcAt p).cooldown = .stopped ∧
      (s.prcAt p).standby = none ∧ (s.prcAt p).episode =
        ⟨0, .auto, 0, none, 0, ⟨0, none⟩, 0, 0, 0, 0, 0, 0, 0, 0, 0, 0, false⟩) ∧ s.prc.episodeCounter = 0) ∧
  ((∀ p, s.aduAt p = ⟨[], []⟩) ∧ s.adu.shortages = 0 ∧ s.adu.bypasses = 0 ∧ s.adu.ignored = 0) ∧
  ((∀ p, s.cruAt p = ⟨0, 0⟩) ∧ s.cru.overflow = 0) ∧
  ((∀ g, s.gpm.gate g = ⟨0, none, .free, 0, .coarse, 0, 0⟩) ∧ s.gpm.free = List.finRange 1024 ∧ s.gpm.fifo = [] ∧
    s.gpm.binds = 0 ∧ s.gpm.frees = 0 ∧ s.gpm.validSpent = 0 ∧ s.gpm.validHold = 0 ∧ s.gpm.staleReports = 0) ∧
  (s.ern.history = [] ∧ s.ern.written = 0 ∧ s.ern.dropped = 0 ∧
    s.ern.levels.toList = [3, 0, 4, 12, 12, 8, 6, 6, 2, 10, 15, 9, 13, 3, 5] ∧ s.ern.pendingSet = [] ∧
    s.ern.sent = 0 ∧ s.ern.coalesced = 0 ∧ s.ern.suppressed = 0 ∧ s.ern.fault = none) ∧
  (s.clc.rx = .hunting ∧ s.clc.gap = .stopped ∧ s.clc.requests = [] ∧ s.clc.replies = [] ∧ s.clc.tx = none ∧
    s.clc.ctr = ⟨0, 0, 0, 0, 0, 0, 0, 0, 0⟩)

/-- A low level on RESET_N puts every block at its reset values, the release lets the reset complete, and its
completion starts the time base from 0; while the reset is in progress no other command has an effect (R20,
R191, R196). The queue of commands and the counter of free values stand outside the part, and a release or a
completion of which there is none changes nothing (the model's choices, notes/assumptions/4.md and 17.md). -/
def Obligations.ResetHoldsThePart : Prop :=
  (∀ s : State,
    exec .resetNAssert s =
      .next { State.reset with phase := .held, free := s.free, pending := s.pending } ∧
    exec .resetNRelease s = .next { s with phase := if s.phase = .held then .completing else s.phase } ∧
    exec .deviceResetComplete s =
      .next (if s.phase = .completing then { s with phase := .running, tmb := ⟨0⟩ } else s)) ∧
  ∀ (c : Instr) (s : State), s.phase ≠ .running →
    c ∉ [Instr.resetNAssert, .resetNRelease, .deviceResetComplete] → exec c s = .next s

/-- RESET_DEVICE composes the reply OK, drops the waiting requests and lets none be taken after it; the end of
the last reply begins the device reset (R191). That the last reply is the one of RESET_DEVICE, and that the queue of
commands and the counter of free values outlive the reset, are the model's (notes/assumptions/16.md and 17.md). -/
def Obligations.ResetDeviceAfterItsReply : Prop :=
  (∀ (s : State) (tag : Byte), Takes s ⟨0x02, tag, []⟩ → s.laneSettled →
    exec (.resetDevice tag []) s =
      .next { s with clc := { s.clc.answered ⟨0x82, tag, [0]⟩ with resetAsked := true, requests := [] } }) ∧
  (∀ s : State, s.clc.resetAsked = true → s.canTake = false) ∧
  ∀ s : State, s.phase = .running → s.clc.resetAsked = true → s.clc.replies = [] → s.clc.tx ≠ none →
    exec .ctlTransmitComplete s =
      .next { State.reset with phase := .completing, free := s.free, pending := s.pending }

/-! ### Invariants -/

/-- The reset state meets every invariant that the statements of this file use. -/
def Obligations.ResetMeetsInvariants : Prop :=
  State.reset.settled ∧ State.reset.rangesOk ∧ State.reset.settingsOk ∧ State.reset.prc.timersOk ∧
    State.reset.ern.pendingOk ∧ State.reset.rtb.ok ∧ State.reset.gpm.listsOk ∧ State.reset.booksOk ∧
    State.reset.queuesOk

/-- No free transmitter is left with something to send, after any step (R11, R15, R16, R176, R186). -/
def Obligations.SettledKept : Prop :=
  ∀ s t : State, s.settled → step s = .next t → t.settled

/-- Every step keeps the counts, levels, allowances and queue lengths in their ranges: the request and reply
queues at most 4 (R184, R186), the history ring at most 32 (R171), A at most 16,777,215 (R156), the stored
level at most the peak level and both at most 15 (R29, R30). The bounds and the order of the wait queue and the
admitted set stand in `BooksKept`. -/
def Obligations.RangesKept : Prop :=
  ∀ s t : State, s.rangesOk → step s = .next t → t.rangesOk

/-- Every step keeps the lists that other state is found by: the pending-order FIFO and the free list without
repeats, the free list holding exactly the gates that are not BOUND (R141, R147); and the Responder Table with
its slots in order and no key twice, every port's arrival list holding its entries, each once (R38, R42). -/
def Obligations.ListsKept : Prop :=
  ∀ s t : State, step s = .next t → (s.gpm.listsOk → t.gpm.listsOk) ∧ (s.rtb.ok → t.rtb.ok)

/-- Every step keeps each port's timers, qualified flag and standby slot to the states of Table 6-3 and R103
(R87). -/
def Obligations.PortTimersKept : Prop :=
  ∀ s t : State, s.prc.timersOk → step s = .next t → t.prc.timersOk

/-- Every step keeps the settings legal: no service number covered by two enabled windows of one rank (R65),
thresholds nondecreasing (R28), configurations in range with Ld below Lw (R85), stored steps as R73 says and
the pool at most 256 steps (R72). -/
def Obligations.SettingsKept : Prop :=
  ∀ s t : State, s.settingsOk → step s = .next t → t.settingsOk

/-- Every step keeps the pending set to one entry for each class and scope, each at its class's present level
with a repeat count of 1 to 255 (R174, R175). -/
def Obligations.PendingSetKept : Prop :=
  ∀ s t : State, s.ern.pendingOk → step s = .next t → t.ern.pendingOk

/-- Every step keeps entries, gates and collections in agreement: each entry's gate reference names a gate
BOUND to it at its epoch and in the mode of its state, and each collection holds exactly its port's WAITING or
ADMITTED entries (R39, R123, R124, R140, R141). With legal settings it also keeps their bounds and their order: a
wait queue of at most 256 members in band and arrival order, an admitted set of at most 72 with at most 8 overdraft
marks, and, in RELIEF, k at or above W or an empty wait queue (R123, R124, R132). -/
def Obligations.BooksKept : Prop :=
  ∀ s t : State, s.booksOk → step s = .next t → t.booksOk ∧ (s.settingsOk → s.queuesOk → t.queuesOk)

/-- Who may change a setting: programs only WRITE_PROGRAM, a window or the default class only SET_WINDOW and
SET_DEFAULT_CLASS, level sets only SET_LEVELS, a port's configuration only SET_PORT, the age limit and the fault
limit only SET_DEVICE, notice levels only SET_NOTICE_LEVELS; and, for each, a device reset (R8, R28, R50, R71,
R83, R84, R173). -/
def Obligations.SettingsHaveOneWriter : Prop :=
  ∀ (c : Instr) (s t : State), exec c s = .next t → t.phase = .running → s.phase = .running →
    ((∀ tag b, c ≠ .writeProgram tag b) → t.pgs = s.pgs) ∧
    ((∀ tag b, c ≠ .setWindow tag b) →
      ∀ i : Fin 8, { t.cmp.windows[i] with hits := 0 } = { s.cmp.windows[i] with hits := 0 }) ∧
    ((∀ tag b, c ≠ .setDefaultClass tag b) → t.cmp.dflt = s.cmp.dflt) ∧
    ((∀ tag b, c ≠ .setLevels tag b) → t.oev.sets = s.oev.sets) ∧
    ((∀ tag b, c ≠ .setPort tag b) → ∀ p, (t.prcAt p).config = (s.prcAt p).config) ∧
    ((∀ tag b, c ≠ .setDevice tag b) → t.rtb.ageLimit = s.rtb.ageLimit ∧ t.flc.faultLimit = s.flc.faultLimit) ∧
    ((∀ tag b, c ≠ .setNoticeLevels tag b) → t.ern.levels = s.ern.levels)

/-! ### The control line -/

/-- The bytes of a control frame, received by a hunting receiver, put its request at the tail of the request
queue and change nothing else (R181, R184). That the counter stops at 4,294,967,295 is the model's choice
(notes/assumptions/21.md). -/
def Obligations.ControlFrameIsQueued : Prop :=
  ∀ (s : State) (kind tag : Byte) (body : List Byte), s.phase = .running → s.settled → s.clc.rx = .hunting →
    s.clc.requests.length < 4 → body.length ≤ 1024 →
    runAll ((ctlFrame kind tag body).map .ctlByteReceived) s =
      .next { s with clc := { s.clc with
        rx := .hunting, gap := .stopped, requests := s.clc.requests ++ [⟨kind, tag, body⟩]
        ctr := { s.clc.ctr with received := sat32 (s.clc.ctr.received + 1) } } }

/-- A wrong CRC, a length out of range, a framing error and an inter-byte timer that runs out each discard the
frame being read, count the cause and raise LINE_ERROR with its code, and so does a good frame that finds four
requests waiting, as an overrun; while hunting, a framing error and any byte but the start byte are skipped and
counted (R181 to R184). That these counters stop at 4,294,967,295 is the model's choice (notes/assumptions/21.md). -/
def Obligations.LineErrorsAreCounted : Prop :=
  ∀ s : State, s.phase = .running → s.laneSettled →
    (∀ bs, s.clc.rx = .reading bs →
      exec .ctlFramingError s = .next (ctlPump (State.raise .lineError none 0 4 { s with clc := { s.clc with
        rx := .hunting, gap := .stopped
        ctr := { s.clc.ctr with framingErrors := sat32 (s.clc.ctr.framingErrors + 1) } } }))) ∧
    (∀ bs start, s.clc.rx = .reading bs → s.clc.gap = .running start 200 → start + 200 ≤ s.now →
      exec .interByteGapExpiry s = .next (ctlPump (State.raise .lineError none 0 1 { s with clc := { s.clc with
        rx := .hunting, gap := .stopped
        ctr := { s.clc.ctr with gapErrors := sat32 (s.clc.ctr.gapErrors + 1) } } }))) ∧
    (∀ b0 b1 : Byte, s.clc.rx = .reading [b0] → ¬(2 ≤ b0.toNat * 256 + b1.toNat ∧ b0.toNat * 256 + b1.toNat ≤ 1026) →
      exec (.ctlByteReceived b1) s = .next (ctlPump (State.raise .lineError none 0 3 { s with clc := { s.clc with
        rx := .hunting, gap := .stopped
        ctr := { s.clc.ctr with lengthErrors := sat32 (s.clc.ctr.lengthErrors + 1) } } }))) ∧
    (∀ (kind tag : Byte) (body : List Byte) (x y : Byte), body.length ≤ 1024 →
      s.clc.rx = .reading (ctlCovered kind tag body ++ [x]) →
      x.toNat * 256 + y.toNat ≠ (crc16 (ctlCovered kind tag body)).toNat →
      exec (.ctlByteReceived y) s = .next (ctlPump (State.raise .lineError none 0 2 { s with clc := { s.clc with
        rx := .hunting, gap := .stopped
        ctr := { s.clc.ctr with crcErrors := sat32 (s.clc.ctr.crcErrors + 1) } } }))) ∧
    (∀ (kind tag : Byte) (body : List Byte) (x y : Byte), body.length ≤ 1024 → 4 ≤ s.clc.requests.length →
      s.clc.rx = .reading (ctlCovered kind tag body ++ [x]) →
      x.toNat * 256 + y.toNat = (crc16 (ctlCovered kind tag body)).toNat →
      exec (.ctlByteReceived y) s = .next (ctlPump (State.raise .lineError none 0 5 { s with clc := { s.clc with
        rx := .hunting, gap := .stopped
        ctr := { s.clc.ctr with overruns := sat32 (s.clc.ctr.overruns + 1) } } }))) ∧
    (s.clc.rx = .hunting → s.lineSettled →
      exec .ctlFramingError s = .next { s with clc := { s.clc with
        ctr := { s.clc.ctr with skipped := sat32 (s.clc.ctr.skipped + 1) } } } ∧
      ∀ b : Byte, b ≠ 0xC5 → exec (.ctlByteReceived b) s = .next { s with clc := { s.clc with
        ctr := { s.clc.ctr with skipped := sat32 (s.clc.ctr.skipped + 1) } } })

/-- The end of a control frame: the head reply begins and leaves the reply queue, or, when none waits, the
selected notice leaves the pending set and its frame begins, or the line goes idle (R176, R186). That the counter of
replies stops at 4,294,967,295 is the model's choice (notes/assumptions/21.md). -/
def Obligations.FreeLineSendsRepliesFirst : Prop :=
  ∀ s : State, s.phase = .running → s.laneSettled → s.clc.resetAsked = false →
    (∀ r rest, s.clc.replies = r :: rest →
      exec .ctlTransmitComplete s = .next { s with clc := { s.clc with
        replies := rest, tx := some (ctlFrame r.kind r.tag r.body)
        ctr := { s.clc.ctr with sent := sat32 (s.clc.ctr.sent + 1) } } }) ∧
    (∀ n, s.clc.replies = [] → selectNotice s.ern.pendingSet = some n →
      exec .ctlTransmitComplete s = .next { s with
        ern := { s.ern with pendingSet := s.ern.pendingSet.erase n, sent := sat32 (s.ern.sent + 1) }
        clc := { s.clc with tx := some (ctlFrame 0x7F 0 n.body) } }) ∧
    (s.clc.replies = [] → s.ern.pendingSet = [] →
      exec .ctlTransmitComplete s = .next { s with clc := { s.clc with tx := none } })

/-- The selected notice: the highest level, then the lower class number, then the lower port with device scope
after every port (R176). -/
def Obligations.NoticeSelectionOrder : Prop :=
  ∀ (l : List Notice), (selectNotice l = none ↔ l = []) ∧
    ∀ n, selectNotice l = some n → n ∈ l ∧ ∀ m ∈ l,
      m.level < n.level ∨ (m.level = n.level ∧ (n.cls.code < m.cls.code ∨ (n.cls = m.cls ∧
        match n.scope, m.scope with
        | some p, some q => p ≤ q
        | some _, none => True
        | none, some _ => False
        | none, none => True)))

/-- Each taken request produces exactly one reply, with its tag and the reply kind of its own, and a request
refused with a status other than OK and QUEUED changes no state but the CLC's record of its receipt and reply
(R185, R187). RESET_DEVICE, when not refused, also closes the queue (`ResetDeviceAfterItsReply`). That the reply
begins before a notice raised in the same event is deduced (notes/assumptions/8.md). -/
def Obligations.OneReplyAndRefusalsChangeNothing : Prop :=
  ∀ (i : Instr) (r : CtlFrame) (s : State), requestOf i = some r → wellFormed i = true → Takes s r → s.laneSettled →
    ¬(r.kind = 0x02 ∧ r.body = []) →
    ∃ (st : Byte) (fields : List Byte) (t : State), exec i s = .next t ∧
      t.clc = s.clc.answered ⟨replyKind r.kind, r.tag, st :: fields⟩ ∧
      (st ≠ 0 → st ≠ 1 → t = { s with clc := t.clc })

/-- A request of no known kind is refused with UNKNOWN, and one of a known kind whose body has the wrong length
with FORMAT; the reply carries the status byte alone (R185). -/
def Obligations.UnknownAndFormatRefusals : Prop :=
  ∀ s : State, s.laneSettled →
    (∀ (kind tag : Byte) (body : List Byte), knownKind kind = false → Takes s ⟨kind, tag, body⟩ →
      exec (.unknownRequest kind tag body) s =
        .next { s with clc := s.clc.answered ⟨if kind.toNat < 128 then kind + 128 else kind, tag, [4]⟩ }) ∧
    ∀ (i : Instr) (r : CtlFrame), requestOf i = some r → knownKind r.kind = true →
      bodyLength r.kind r.body ≠ some r.body.length → Takes s r → wellFormed i = true →
      exec i s = .next { s with clc := s.clc.answered ⟨r.kind + 128, r.tag, [3]⟩ }

/-! ### The fabric link -/

/-- The fields of an inbound record, laid out as Table 13-3 gives them, are read back as they were; a record
whose kind is not inbound, or whose port, gate or epoch is out of range, is named by the first check it fails
(R13, R194). -/
def Obligations.RecordsReadBack : Prop :=
  (∀ r : InRecord, (recordBytes r).length = 16 ∧ readRecord (recordBytes r) = .ok r) ∧
  ∀ l : List Byte,
    (fieldAt l 0 1 ∉ [1, 2, 3, 4, 5] → readRecord l = .error .recordKind) ∧
    (fieldAt l 0 1 ∈ [1, 2, 3] → 48 ≤ fieldAt l 1 1 → readRecord l = .error .portRange) ∧
    (fieldAt l 0 1 ∈ [4, 5] → 1024 ≤ fieldAt l 2 2 → readRecord l = .error .gateRange) ∧
    (fieldAt l 0 1 ∈ [4, 5] → fieldAt l 2 2 < 1024 → 16 ≤ fieldAt l 4 1 → readRecord l = .error .epochRange) ∧
    (fieldAt l 0 1 = 3 → fieldAt l 1 1 < 48 → fieldAt l 6 1 % 2 = 1 → 1024 ≤ fieldAt l 8 2 →
      readRecord l = .error .gateRange) ∧
    (fieldAt l 0 1 = 3 → fieldAt l 1 1 < 48 → fieldAt l 6 1 % 2 = 1 → fieldAt l 8 2 < 1024 → 16 ≤ fieldAt l 7 1 →
      readRecord l = .error .epochRange)

/-- In UP, a frame is one event: it is counted, the expected sequence follows it, and its records are handed
over in frame order. With the expected sequence it clears the error count; with another it adds the gap to the
lost frames, raises the error count, here below the fault limit, and is offered to the fault snapshot (R1, R4,
R5, R14). A record that fails a check, here one of a frame in sequence, is discarded and counted, offered to the
snapshot with its kind and its index in the frame, and raises RECORD_ERROR with the counter, and the other records
are handed over; the checks are those of `RecordsReadBack` (R13, R178). -/
def Obligations.FramesAreTakenInUp : Prop :=
  ∀ (s : State) (rs : List InRecord), s.phase = .running → s.settled → s.flc.link = .up → s.flc.rx = .hunting →
    rs.length ≤ 32 →
    exec (.fabricFrameEvent (fabricFrame s.flc.expected (rs.map recordBytes))) s =
      .next { s with flc := { s.flc with
        rx := .hunting, expected := s.flc.expected + 1, errCount := 0, handed := s.flc.handed ++ rs
        ctr := { s.flc.ctr with wellFormed := sat32 (s.flc.ctr.wellFormed + 1) } } } ∧
    (∀ seq : BitVec 16, seq ≠ s.flc.expected → s.flc.errCount + 1 < s.flc.faultLimit → s.flc.faultLimit ≤ 255 →
      exec (.fabricFrameEvent (fabricFrame seq (rs.map recordBytes))) s =
        .next { s with
          flc := { s.flc with
            rx := .hunting, expected := seq + 1, errCount := s.flc.errCount + 1, handed := s.flc.handed ++ rs
            ctr := { s.flc.ctr with
              wellFormed := sat32 (s.flc.ctr.wellFormed + 1)
              lost := sat32 (s.flc.ctr.lost + (seq - s.flc.expected).toNat) } }
          ern := s.ern.offer .sequence seq 32 s.stamp }) ∧
    ∀ (bad : List Byte) (k : FaultKind) (more : List InRecord), bad.length = 16 → readRecord bad = .error k →
      rs.length + more.length < 32 →
      let n := sat32 (s.flc.ctr.recordErrors + 1)
      exec (.fabricFrameEvent (fabricFrame s.flc.expected (rs.map recordBytes ++ bad :: more.map recordBytes))) s =
        .next (ctlPump { s with
          flc := { s.flc with
            rx := .hunting, expected := s.flc.expected + 1, errCount := 0, handed := s.flc.handed ++ rs ++ more
            ctr := { s.flc.ctr with wellFormed := sat32 (s.flc.ctr.wellFormed + 1), recordErrors := n } }
          ern := (s.ern.offer k s.flc.expected rs.length s.stamp).raise .recordError none 0 n s.stamp })

/-- In SYNCING, a well-formed frame is taken whatever its sequence and the link becomes UP with a LINK_STATE
notice of value 2; the notice begins at once when the control transmitter is free (R3, R12). -/
def Obligations.FirstFrameBringsLinkUp : Prop :=
  ∀ (s : State) (rs : List InRecord) (seq : BitVec 16), s.phase = .running → s.settled → s.flc.link = .syncing →
    s.flc.rx = .hunting → rs.length ≤ 32 →
    exec (.fabricFrameEvent (fabricFrame seq (rs.map recordBytes))) s =
      .next (ctlPump { s with
        flc := { s.flc with
          link := .up, rx := .hunting, expected := seq + 1, errCount := 0, handed := s.flc.handed ++ rs
          ctr := { s.flc.ctr with wellFormed := sat32 (s.flc.ctr.wellFormed + 1) } }
        ern := s.ern.raise .linkState none 0 2 s.stamp })

/-- In FAULTED and STOPPING a frame, well-formed or malformed, is discarded unread and counted, and changes nothing
else: the error count, the expected sequence, the malformed-frame and lost-frame counters and the fault snapshot stay,
and no record is handed over; in DOWN no symbol has an effect (R1, R2). -/
def Obligations.FrameDiscardedUnread : Prop :=
  ∀ (s : State), s.phase = .running → s.settled →
    (s.flc.link = .faulted ∨ s.flc.link = .stopping → s.flc.rx = .hunting →
      (∀ (rs : List (List Byte)) (seq : BitVec 16), rs.length ≤ 32 → (∀ r ∈ rs, r.length = 16) →
        exec (.fabricFrameEvent (fabricFrame seq rs)) s = .next { s with flc := { s.flc with
          rx := .hunting, ctr := { s.flc.ctr with discarded := sat32 (s.flc.ctr.discarded + 1) } } }) ∧
      ∀ (syms : List LaneSym) (seq : Option (BitVec 16)) (rx : FabRx), MalformedRun syms seq rx →
        exec (.fabricFrameEvent syms) s = .next { s with flc := { s.flc with
          rx := rx, ctr := { s.flc.ctr with discarded := sat32 (s.flc.ctr.discarded + 1) } } }) ∧
    ∀ syms, s.flc.link = .down → exec (.fabricFrameEvent syms) s = .next s

/-- A frame is malformed at a count above 32, at a version other than 1, at a CRC that does not agree, and at a sync
word inside it, which begins the next frame: in SYNCING and UP it is counted and offered to the fault snapshot with
index 32 and its sequence, or the expected sequence when its own had not been received, and in UP it raises the
error count, here below the fault limit (R1, R3, R6, Table 1-1). -/
def Obligations.MalformedHeaderIsCounted : Prop :=
  ∀ (s : State) (syms : List LaneSym) (seq : Option (BitVec 16)) (rx : FabRx), MalformedRun syms seq rx →
    s.phase = .running → s.settled → s.flc.rx = .hunting →
    (s.flc.link = .syncing ∨ s.flc.link = .up ∧ s.flc.errCount + 1 < s.flc.faultLimit ∧ s.flc.faultLimit ≤ 255) →
    exec (.fabricFrameEvent syms) s =
      .next { s with
        flc := { s.flc with
          rx := rx, errCount := if s.flc.link = .up then s.flc.errCount + 1 else s.flc.errCount
          ctr := { s.flc.ctr with malformed := sat32 (s.flc.ctr.malformed + 1) } }
        ern := s.ern.offer .malformed (seq.getD s.flc.expected) 32 s.stamp }

/-- When a malformed frame or a frame out of sequence brings the error count to the fault limit, the link becomes
FAULTED, with LINK_STATE and LINK_FAULT, and the teardown empties the tables: no port keeps an episode, a baseline,
an entry, a collection or credit, each episode leaves its summary and EPISODE_END, every gate is FREE with its FREE
order made, DISARMED ports stay DISARMED and all others are IDLE; the settings stay. The frame out of sequence is
counted as discarded too, and its records are not handed over (R5 to R7, R17, R36, R58, R107, R154). -/
def Obligations.LinkFaultTearsDown : Prop :=
  ∀ (s : State), s.phase = .running → s.booksOk → s.prc.timersOk → s.flc.rx = .hunting →
    s.flc.link = .up → s.flc.faultLimit ≤ min 255 (s.flc.errCount + 1) →
    let n := min 255 (s.flc.errCount + 1)
    (∀ (syms : List LaneSym) (seq : Option (BitVec 16)) (rx : FabRx), MalformedRun syms seq rx →
      ∃ t, exec (.fabricFrameEvent syms) s = .next t ∧ TornDown .fault s t ∧ (s.settled → FreeOrdersMade s t) ∧
        t.flc.link = .faulted ∧ t.flc.errCount = n ∧ t.flc.rx = rx ∧
        t.flc.ctr.linkFaults = sat32 (s.flc.ctr.linkFaults + 1) ∧
        t.flc.ctr.malformed = sat32 (s.flc.ctr.malformed + 1) ∧ t.flc.expected = s.flc.expected ∧
        t.ern.fault = (s.ern.offer .malformed (seq.getD s.flc.expected) 32 s.stamp).fault ∧
        t.announces .linkState none 0 3 s.stamp ∧ t.announces .linkFault none 0 n s.stamp) ∧
    ∀ (seq : BitVec 16) (records : List (List Byte)), seq ≠ s.flc.expected → records.length ≤ 32 →
      (∀ r ∈ records, r.length = 16) →
      ∃ t, exec (.fabricFrameEvent (fabricFrame seq records)) s = .next t ∧ TornDown .fault s t ∧
        (s.settled → FreeOrdersMade s t) ∧ t.flc.link = .faulted ∧ t.flc.errCount = n ∧ t.flc.rx = .hunting ∧
        t.flc.ctr.linkFaults = sat32 (s.flc.ctr.linkFaults + 1) ∧
        t.flc.ctr.wellFormed = sat32 (s.flc.ctr.wellFormed + 1) ∧
        t.flc.ctr.lost = sat32 (s.flc.ctr.lost + (seq - s.flc.expected).toNat) ∧
        t.flc.ctr.discarded = sat32 (s.flc.ctr.discarded + 1) ∧ t.flc.expected = seq + 1 ∧
        t.ern.fault = (s.ern.offer .sequence seq 32 s.stamp).fault ∧
        t.announces .linkState none 0 3 s.stamp ∧ t.announces .linkFault none 0 n s.stamp

/-- The idle interval that has run out sends an idle frame when the transmitter is free and no gate waits: it
carries the outbound sequence, which rises by 1, and the interval restarts; before 100 µs, and in STOPPING,
nothing is sent (R16). That the command changes nothing before 100 µs is the model's choice
(notes/assumptions/4.md). -/
def Obligations.IdleFrameIsSent : Prop :=
  ∀ (s : State) (start : Nat), s.phase = .running → s.settled → s.flc.idle = .running start →
    (start + 100 ≤ s.now → s.flc.tx = none → s.flc.link.sendsIdle = true →
      exec .idleIntervalExpiry s = .next { s with flc := { s.flc with
        tx := some (fabricFrame s.flc.outSeq []), outSeq := s.flc.outSeq + 1, idle := .running s.now
        ctr := { s.flc.ctr with framesSent := sat32 (s.flc.ctr.framesSent + 1) } } }) ∧
    (s.now < start + 100 → exec .idleIntervalExpiry s = .next s) ∧
    (start + 100 ≤ s.now → s.flc.link = .stopping →
      exec .idleIntervalExpiry s = .next { s with flc := { s.flc with idle := .runOut } })

/-- When the fabric transmitter becomes free: with gates in the FIFO an order frame of up to 32 orders begins;
otherwise an idle frame if the interval has run out; and in STOPPING with an empty FIFO the link becomes DOWN
(R11, R15, R16). That an interval which ran out while the lane was busy still sends its idle frame is deduced
(notes/assumptions/10.md). -/
def Obligations.FreeLaneSendsOrders : Prop :=
  ∀ s : State, s.phase = .running → s.lineSettled → s.flc.link ≠ .down →
    (s.gpm.fifo ≠ [] →
      exec .fabricTransmitComplete s = .next { s with
        flc := { s.flc with
          tx := some (fabricFrame s.flc.outSeq ((s.gpm.fifo.take 32).map fun g => ((s.gpm.gate g).order g).bytes))
          outSeq := s.flc.outSeq + 1, idle := .running s.now
          ctr := { s.flc.ctr with
            framesSent := sat32 (s.flc.ctr.framesSent + 1)
            ordersSent := sat32 (s.flc.ctr.ordersSent + min 32 s.gpm.fifo.length) } }
        gpm := s.gpm.takeBatch }) ∧
    (s.gpm.fifo = [] → s.flc.idle = .runOut → s.flc.link.sendsIdle = true →
      exec .fabricTransmitComplete s = .next { s with flc := { s.flc with
        tx := some (fabricFrame s.flc.outSeq []), outSeq := s.flc.outSeq + 1, idle := .running s.now
        ctr := { s.flc.ctr with framesSent := sat32 (s.flc.ctr.framesSent + 1) } } }) ∧
    (s.gpm.fifo = [] → s.flc.idle ≠ .runOut → s.flc.link ≠ .stopping →
      exec .fabricTransmitComplete s = .next { s with flc := { s.flc with tx := none } }) ∧
    (s.gpm.fifo = [] → s.flc.link = .stopping →
      exec .fabricTransmitComplete s = .next (ctlPump (State.raise .linkState none 0 0 { s with flc := { s.flc with
        tx := none, link := .down, rx := .hunting, idle := .stopped } })))

/-- A Gate Order carries the gate's record at the moment of taking; a pending add above 0 raises the add number
by 1 and is sent; the taken gates leave the head of the FIFO, and no other gate's record changes (R147,
R148, Table 13-4). -/
def Obligations.OrdersCarryTheRecord : Prop :=
  ∀ m : Gpm, m.fifo.Nodup →
    m.takeBatch.fifo = m.fifo.drop 32 ∧ m.takeBatch.free = m.free ∧
    (∀ g, g ∉ m.fifo.take 32 → m.takeBatch.gate g = m.gate g) ∧
    (∀ g ∈ m.fifo.take 32, m.takeBatch.gate g = { m.gate g with
      lastAdd := if (m.gate g).pendingAdd = 0 then (m.gate g).lastAdd else (m.gate g).lastAdd + 1, pendingAdd := 0 }) ∧
    ∀ g : GateNo, (m.gate g).divisor ≤ 4095 → (m.gate g).pendingAdd ≤ 16777215 →
      let b := ((m.gate g).order g).bytes
      b.length = 16 ∧ fieldAt b 0 1 = 0x81 ∧ fieldAt b 1 1 = (m.gate g).mode.code ∧ fieldAt b 2 2 = g.val ∧
      fieldAt b 4 1 = (m.gate g).epoch.toNat ∧
      fieldAt b 5 1 = (if (m.gate g).pendingAdd = 0 then (m.gate g).lastAdd else (m.gate g).lastAdd + 1).toNat ∧
      fieldAt b 6 1 = (m.gate g).res.code ∧ fieldAt b 7 1 = 0 ∧ fieldAt b 8 2 = (m.gate g).divisor ∧
      fieldAt b 10 3 = (m.gate g).pendingAdd ∧ fieldAt b 13 3 = 0

/-! ### Occupancy reports -/

/-- A report at the OEV: a baseline or an accepted report updates it, with the clamp of the drained delta, and a
stale one, in every port state, is only counted; the level is the largest i with Q at or above Ti, or 0 when there is
none (R25 to R27, R29 to R31, R35). In DISARMED and COOLDOWN the hand-over of an accepted report has no effect, and
in PAUSED, and in DRAIN above Ld, it only restarts the stale timer: no credit is made and the step is held (R97, R100,
R119). -/
def Obligations.ReportUpdatesOccupancy : Prop :=
  (∀ (t : Vector Nat 15) (q : Nat), levelOf t q ≤ 15 ∧
    (∀ i : Fin 15, levelOf t q = i.val + 1 → t[i] ≤ q) ∧
    ∀ i : Fin 15, t[i] ≤ q → i.val + 1 ≤ levelOf t q) ∧
  (∀ (s : State) (p : Port) (seq cells : BitVec 16) (d : BitVec 32),
    TakesRecord s (.occupancy p seq cells d) → s.settled →
    (s.prcAt p).state = .disarmed ∨ (s.prcAt p).state = .cooldown →
    let o := s.oevAt p
    let gap := (seq.toNat + 65536 - o.lastSeq.toNat) % 65536
    let delta := (d.toNat + 4294967296 - o.lastDrained.toNat) % 4294967296
    let level := levelOf (s.oev.sets[(s.prcAt p).config.levelSet]) cells.toNat
    let o' : OevPort :=
      if o.baseline = false ∨ (1 ≤ gap ∧ gap ≤ 32767) then
        { baseline := true, lastSeq := seq, lastDrained := d, level := level, peak := max o.peak level
          accepted := sat32 (o.accepted + 1), stale := o.stale
          clamps := if o.baseline = true ∧ 16777215 < delta then sat32 (o.clamps + 1) else o.clamps }
      else { o with stale := sat32 (o.stale + 1) }
    exec (.occupancyReport p seq cells d) s =
      .next ((s.withoutRecord (.occupancy p seq cells d)).modOev p fun _ => o')) ∧
  ∀ (s : State) (p : Port) (seq cells : BitVec 16) (d : BitVec 32),
    TakesRecord s (.occupancy p seq cells d) → s.settled →
    (¬(s.oevAt p).accepts seq → exec (.occupancyReport p seq cells d) s =
      .next ((s.withoutRecord (.occupancy p seq cells d)).modOev p fun o =>
        { o with stale := sat32 (o.stale + 1) })) ∧
    ((s.oevAt p).accepts seq → (s.prcAt p).state = .paused ∨ ((s.prcAt p).state = .drain ∧
        (s.prcAt p).config.ld < levelOf s.oev.sets[(s.prcAt p).config.levelSet] cells.toNat) →
      exec (.occupancyReport p seq cells d) s =
        .next (((s.withoutRecord (.occupancy p seq cells d)).afterReport p seq cells d).modPrc p fun q =>
          { q with stale := .running s.now q.config.ts }))

/-- An accepted report in IDLE at or above Lw starts WATCH with the debounce and stale timers; in WATCH, below
Lw it returns to IDLE, and at or above Lw on a port that is not qualified, or whose fan-in is below F, or whose
program is empty, it only restarts the stale timer; in IDLE below Lw nothing changes but the OEV (R90, R91, R93). -/
def Obligations.ReportsMoveIdleAndWatch : Prop :=
  ∀ (s : State) (p : Port) (seq cells : BitVec 16) (d : BitVec 32),
    TakesRecord s (.occupancy p seq cells d) → s.settled → (s.prcAt p).timersOk → (s.oevAt p).accepts seq →
    let c := (s.prcAt p).config
    let level := levelOf (s.oev.sets[c.levelSet]) cells.toNat
    let t := (s.withoutRecord (.occupancy p seq cells d)).afterReport p seq cells d
    ((s.prcAt p).state = .idle → c.lw ≤ level → exec (.occupancyReport p seq cells d) s =
      .next (t.modPrc p fun q => { q with
        state := .watch, debounce := .running s.now c.td, stale := .running s.now c.ts })) ∧
    ((s.prcAt p).state = .idle → level < c.lw → exec (.occupancyReport p seq cells d) s = .next t) ∧
    ((s.prcAt p).state = .watch → level < c.lw → exec (.occupancyReport p seq cells d) s =
      .next (t.modPrc p fun q => { q with
        state := .idle, qualified := false, debounce := .stopped, stale := .stopped })) ∧
    ((s.prcAt p).state = .watch → c.lw ≤ level →
      (s.prcAt p).qualified = false ∨ s.fanIn p < c.fanIn ∨ s.pgs.programs[c.program] = [] →
      exec (.occupancyReport p seq cells d) s =
        .next (t.modPrc p fun q => { q with stale := .running s.now c.ts }))

/-- An accepted report in RELIEF restarts the stale timer and makes the credit of the stages C1 to C3, which goes to S,
to the episode's total and to A, and A is shared out; where the step's condition is not met then, nothing more is done
for it, and where it is met the step ends by condition in the same event: the next step is entered, or the drain phase
after the last (R96, R113 to R115, R157 to R161). With no member ready and room in A, the state is written out.
What A and the grants do is said in `PoolSaturatesAndIsShared`. -/
def Obligations.ReportInReliefMakesCredit : Prop :=
  ∀ (s : State) (p : Port) (seq cells : BitVec 16) (d : BitVec 32),
    TakesRecord s (.occupancy p seq cells d) → (s.prcAt p).state = .relief → (s.oevAt p).accepts seq →
    let st := s.currentStep p
    let delta := (s.oevAt p).deltaOf d
    let level := levelOf (s.oev.sets[(s.prcAt p).config.levelSet]) cells.toNat
    let c2 := if level < st.lc then delta * st.fa / st.fb else 0
    let c3 := if st.budget = 0 then c2 else min c2 (st.budget - (s.cruAt p).s)
    let met := match st.kind with
      | .budget => sat32 ((s.cruAt p).s + c3) = st.budget
      | .level => level ≤ st.lt
      | .queueEmpty => (s.aduAt p).waitQ = []
      | .guardOnly => False
    let m := (s.withoutRecord (.occupancy p seq cells d)).afterCredit p seq cells d c3
    (s.settled → (s.aduAt p).admitted.filter s.ready = [] → ¬met → (s.cruAt p).a + c3 ≤ 16777215 →
      exec (.occupancyReport p seq cells d) s =
        .next ((((s.withoutRecord (.occupancy p seq cells d)).afterReport p seq cells d).modPrc p fun q => { q with
          stale := .running s.now q.config.ts
          episode := { q.episode with credited := sat32 (q.episode.credited + c3) } }).modCru p fun c =>
          ⟨c.a + c3, sat32 (c.s + c3)⟩)) ∧
    (¬met → exec (.occupancyReport p seq cells d) s = .next (ctlPump (fabPump m))) ∧
    (met → s.booksOk → (s.prcAt p).timersOk →
      ∃ t, exec (.occupancyReport p seq cells d) s = .next t ∧ StepEnded p false m t)

/-- Bytes added to A above 16,777,215 are cut off: A becomes 16,777,215, the excess goes to the credit-overflow
counter, and CREDIT_OVERFLOW is raised on the port with the excess as its value. Distribution grants nothing when
the share is below 1,024; otherwise A falls by the sum of the grants, each the lesser of the share and the member's
cap, and never below 0 (R159 to R161, R168). A grant clears the member's dry field, raises its granted bytes and
becomes the pending add of its gate, which enters the FIFO, in the order of the admitted set, if it was absent from
it; no other entry and no other gate changes (R146, R147, R161). -/
def Obligations.PoolSaturatesAndIsShared : Prop :=
  (∀ (s : State) (p : Port) (n : Nat),
    ((s.cruAt p).a + n ≤ 16777215 → addToPool p n s = s.modCru p fun c => { c with a := c.a + n }) ∧
    (16777215 < (s.cruAt p).a + n →
      let t := addToPool p n s
      (t.cruAt p).a = 16777215 ∧ (t.cruAt p).s = (s.cruAt p).s ∧
      t.cru.overflow = sat32 (s.cru.overflow + ((s.cruAt p).a + n - 16777215)) ∧
      t.ern = s.ern.raise .creditOverflow (some p) (s.prcAt p).episode.number ((s.cruAt p).a + n - 16777215) s.stamp ∧
      t = { s with cru := t.cru, ern := t.ern })) ∧
  ∀ (s : State) (p : Port),
    let ready := (s.aduAt p).admitted.filter s.ready
    let share := (s.cruAt p).a / ready.length / 64 * 64
    let caps := ready.map fun i => match s.rtb.entry? i with | some e => min share e.cap | none => 0
    let t := distribute p s
    (share < 1024 → t = s) ∧
    (1024 ≤ share → caps.sum ≤ (s.cruAt p).a ∧ (t.cruAt p).a = (s.cruAt p).a - caps.sum ∧
      (t.cruAt p).s = (s.cruAt p).s ∧ (∀ q, q ≠ p → t.cruAt q = s.cruAt q) ∧
      (∀ i, i ∉ ready → t.rtb.entry? i = s.rtb.entry? i) ∧
      (∀ i ∈ ready, ∃ e e', s.rtb.entry? i = some e ∧ t.rtb.entry? i = some e' ∧ e'.dry = some false) ∧
      (s.booksOk →
        (∀ i ∈ ready, ∃ e r, s.rtb.entry? i = some e ∧ e.gate = some r ∧
          t.rtb.entry? i = some { e with dry := some false, granted := sat32 (e.granted + min share e.cap) } ∧
          t.gpm.gate r.gate = { s.gpm.gate r.gate with pendingAdd := min 16777215 (min share e.cap) }) ∧
        (∀ g, (∀ i ∈ ready, s.gateOf i ≠ some g) → t.gpm.gate g = s.gpm.gate g) ∧
        ((∀ i ∈ ready, ∀ e, s.rtb.entry? i = some e → e.cap ≠ 0) →
          t.gpm.fifo = s.gpm.fifo ++ (ready.filterMap s.gateOf).filter (· ∉ s.gpm.fifo)) ∧
        t = { s with cru := t.cru, rtb := t.rtb, gpm := t.gpm }))

/-! ### The Responder Table -/

/-- A Sighting of a key that is in the table only sets the entry's last-activity time, in every state (R44). A
Sighting of a new key, with an empty slot, creates a SEEN entry in the lowest empty slot at the tail of its port's
arrival list, under the class that decides, whose match count rises; nothing else changes when the entry is not
eligible, and in every port state but RELIEF, PAUSED and a qualified WATCH whose opening condition then holds, which
`EpisodeOpens` covers (R38, R42, R45, R46, R62). An eligible one is an arrival of a port in RELIEF and PAUSED: in
RELIEF with k below W and an empty wait queue it is admitted, otherwise held at the end of its band while the queue
holds fewer than 256, otherwise bypassed, and without a free gate left UNGATED; the gate bound, and every gate that the new k
re-rates, has its order on its way (R125 to R128, R130, R131, R133, R142, R147). -/
def Obligations.SightingRefreshesOrCreates : Prop :=
  (∀ (s : State) (h : BitVec 32) (p : Port) (ing : BitVec 6) (srv : BitVec 16) (i : Slot) (e : Entry),
    TakesRecord s (.sighting h p ing srv) → s.settled → s.rtb.lookup h p = some (i, e) →
    exec (.sighting h p ing srv) s = .next { s.withoutRecord (.sighting h p ing srv) with
      rtb := { s.rtb.modEntry i (fun x => { x with lastActivity := s.now }) with
        ctr := { s.rtb.ctr with sightings := sat32 (s.rtb.ctr.sightings + 1) } } }) ∧
  ∀ (s : State) (h : BitVec 32) (p : Port) (ing : BitVec 6) (srv : BitVec 16) (i : Slot) (cls : Fin 9)
    (c : ClassParams), TakesRecord s (.sighting h p ing srv) → s.rtb.lookup h p = none →
    s.rtb.table.length < 2048 → s.rtb.entry? i = none → (∀ j, j < i → s.rtb.entry? j ≠ none) →
    s.cmp.Decides srv cls c →
    let r := s.withoutRecord (.sighting h p ing srv)
    let e : Entry := ⟨h, p, ing, srv, cls, c.eligible, c.band, c.cap, .seen, none, none, none, 0, none, s.now, s.now⟩
    let q := s.prcAt p
    (s.settled → (c.eligible = false ∨ (q.state ≠ .relief ∧ q.state ≠ .paused ∧ (q.state = .watch →
        q.qualified = false ∨ s.fanIn p + 1 < q.config.fanIn ∨ s.pgs.programs[q.config.program] = []))) →
      ∃ t, exec (.sighting h p ing srv) s = .next t ∧ EntryCreated i e r t) ∧
    (s.booksOk → c.eligible = true → q.state = .relief ∨ q.state = .paused →
      (q.state = .relief → (s.currentStep p).width ≤ s.admittedCount p ∨ (s.aduAt p).waitQ = []) →
      ∃ m t, exec (.sighting h p ing srv) s = .next t ∧ EntryCreated i e r m ∧ OthersKept p m t ∧
        (∀ j, j ≠ i → t.rtb.entry? j = s.rtb.entry? j) ∧ t.cru = s.cru ∧ t.oev = s.oev ∧
        { t.prcAt p with episode := q.episode } = q ∧ (∃ added, OrdersMade added s t) ∧
        let enters := q.state = .relief ∧ s.admittedCount p < (s.currentStep p).width ∧ (s.aduAt p).waitQ = []
        if ¬enters ∧ 256 ≤ (s.aduAt p).waitQ.length then
          t.rtb.entry? i = some { e with state := .bypassed } ∧ t.aduAt p = s.aduAt p ∧
          (t.prcAt p).episode = { q.episode with bypassed := sat32 (q.episode.bypassed + 1) } ∧
          t.adu.bypasses = sat32 (s.adu.bypasses + 1) ∧ t.gpm.free = s.gpm.free ∧
          t.announces .bypass (some p) q.episode.number (sat32 (q.episode.bypassed + 1)) s.stamp
        else if s.gpm.free = [] then
          t.rtb.entry? i = some { e with state := .ungated } ∧ t.aduAt p = s.aduAt p ∧
          (t.prcAt p).episode = { q.episode with ungated := sat32 (q.episode.ungated + 1) } ∧
          t.adu.shortages = sat32 (s.adu.shortages + 1) ∧
          t.announces .gateShortage (some p) q.episode.number (sat32 (q.episode.ungated + 1)) s.stamp
        else ∃ g rest, s.gpm.free = g :: rest ∧ t.gpm.free = rest ∧ (t.gpm.gate g).bound = some ⟨h, p⟩ ∧
          (t.gpm.gate g).epoch = (s.gpm.gate g).epoch + 1 ∧
          let f : Entry := { e with gate := some ⟨g, (s.gpm.gate g).epoch + 1⟩ }
          if enters then
            t.rtb.entry? i = some { f with state := .admitted, dry := some true, overdraft := some false } ∧
            t.aduAt p = ⟨[], (s.aduAt p).admitted ++ [i]⟩ ∧ (t.prcAt p).episode = Episode.admitting 1 q.episode ∧ t.rated p
          else
            t.rtb.entry? i = some { f with state := .waiting } ∧ (t.gpm.gate g).mode = .closed ∧
            (t.aduAt p).admitted = (s.aduAt p).admitted ∧ (t.prcAt p).episode = q.episode ∧
            ∃ a b, (s.aduAt p).waitQ = a ++ b ∧ (t.aduAt p).waitQ = a ++ i :: b ∧
              (∀ j ∈ a, ∃ x, s.rtb.entry? j = some x ∧ x.band ≤ c.band) ∧
              (s.queuesOk → ∀ j ∈ b, ∃ x, s.rtb.entry? j = some x ∧ c.band < x.band))

/-- A Sighting of a new key on a full table evicts the SEEN entry of greatest age, the lowest slot among equals,
whatever its port and in whatever port state, and then acts as on the table without that entry, whose slot the new
entry takes, as is written out for a port that has no episode and no qualified WATCH; with no SEEN entry it is lost,
counted, and TABLE_FULL carries the count (R45, R47, R48). -/
def Obligations.FullTableEvictsOrLoses : Prop :=
  (∀ (now : Nat) (l : List (Slot × Entry)) (x : Slot × Entry), l.Pairwise (fun a b => a.1 < b.1) →
    (oldestSeen now l = some x ↔ x ∈ l ∧ x.2.state = .seen ∧ ∀ y ∈ l, y.2.state = .seen →
      y.2.age now < x.2.age now ∨ (y.2.age now = x.2.age now ∧ x.1 ≤ y.1))) ∧
  (∀ (s : State) (h : BitVec 32) (p : Port) (ing : BitVec 6) (srv : BitVec 16) (x : Slot × Entry),
    TakesRecord s (.sighting h p ing srv) → s.rtb.ok → s.rtb.lookup h p = none →
    2048 ≤ s.rtb.table.length → oldestSeen s.now s.rtb.table = some x →
    exec (.sighting h p ing srv) s = exec (.sighting h p ing srv) { s with
      rtb := { s.rtb with
        table := s.rtb.table.filter fun y => y.1 ≠ x.1
        arrival := modAt s.rtb.arrival x.2.port fun l => l.erase x.1
        ctr := { s.rtb.ctr with evictions := sat32 (s.rtb.ctr.evictions + 1) } } } ∧
    (s.settled → (s.prcAt p).state.hasEpisode = false → (s.prcAt p).qualified = false →
      ∃ t e, exec (.sighting h p ing srv) s = .next t ∧ t.rtb.entry? x.1 = some e ∧
        e.hash = h ∧ e.port = p ∧ e.ingress = ing ∧ e.service = srv ∧ e.state = .seen ∧ e.gate = none ∧
        e.firstSeen = s.now ∧ e.lastActivity = s.now ∧ (∀ j, j ≠ x.1 → t.rtb.entry? j = s.rtb.entry? j) ∧
        (∀ q : Port, t.rtb.arrival[q] =
          (if q = x.2.port then s.rtb.arrival[q].erase x.1 else s.rtb.arrival[q]) ++ (if q = p then [x.1] else [])) ∧
        t.rtb.ctr = { s.rtb.ctr with
          sightings := sat32 (s.rtb.ctr.sightings + 1), created := sat32 (s.rtb.ctr.created + 1)
          evictions := sat32 (s.rtb.ctr.evictions + 1) } ∧ t.rtb.ageLimit = s.rtb.ageLimit ∧
        t = { s.withoutRecord (.sighting h p ing srv) with rtb := t.rtb, cmp := t.cmp })) ∧
  ∀ (s : State) (h : BitVec 32) (p : Port) (ing : BitVec 6) (srv : BitVec 16),
    TakesRecord s (.sighting h p ing srv) → s.laneSettled → s.rtb.lookup h p = none → 2048 ≤ s.rtb.table.length →
    (∀ x ∈ s.rtb.table, x.2.state ≠ .seen) →
    exec (.sighting h p ing srv) s = .next (ctlPump (State.raise .tableFull none 0 (sat32 (s.rtb.ctr.lost + 1))
      { s.withoutRecord (.sighting h p ing srv) with
        rtb := { s.rtb with ctr := { s.rtb.ctr with lost := sat32 (s.rtb.ctr.lost + 1) } } }))

/-- A Flow End of a key that is not in the table only counts (R52); for an entry that is SEEN, BYPASSED or
UNGATED and holds no gate it removes the entry and nothing more (R43, R53). -/
def Obligations.FlowEndWithoutGate : Prop :=
  ∀ (s : State) (h : BitVec 32) (p : Port) (g : Option GateRef) (left : BitVec 24),
    TakesRecord s (.flowEnd h p g left) → s.settled →
    (s.rtb.lookup h p = none →
      exec (.flowEnd h p g left) s = .next { s.withoutRecord (.flowEnd h p g left) with
        rtb := { s.rtb with ctr := { s.rtb.ctr with
          flowEnds := sat32 (s.rtb.ctr.flowEnds + 1), unknownEnds := sat32 (s.rtb.ctr.unknownEnds + 1) } } }) ∧
    ∀ i e, s.rtb.ok → s.rtb.lookup h p = some (i, e) → e.gate = none →
      e.state = .seen ∨ e.state = .bypassed ∨ e.state = .ungated →
      exec (.flowEnd h p g left) s = .next { s.withoutRecord (.flowEnd h p g left) with
        rtb := { s.rtb with
          table := s.rtb.table.filter fun x => x.1 ≠ i
          arrival := modAt s.rtb.arrival p fun l => l.erase i
          ctr := { s.rtb.ctr with flowEnds := sat32 (s.rtb.ctr.flowEnds + 1) } } }

/-- A Flow End of an ADMITTED entry removes the entry, frees its gate and counts it completed; in RELIEF and
PAUSED, and only when the record names the entry's gate and epoch, the allowance left goes back to A up to
16,777,215, and an excess is added to the credit-overflow counter and raises CREDIT_OVERFLOW with the excess; then
waiting entries are admitted up to the width, in RELIEF, and every admitted gate has the divisor for the new k (R52,
R54, R55, R132, R133, R163, R168). A Flow End of a WAITING entry takes it out of the wait queue, frees its gate and
counts it as ended while held, and one of a RELEASED entry frees its gate; neither makes a refund, and k, A and the
other entries stay (R52, R53, R55). The freed gate keeps its epoch and last add number, and its FREE order, and the
order of every gate that the event changes, is on its way (R144, R145, R147). -/
def Obligations.FlowEndOfAdmitted : Prop :=
  ∀ (s : State) (h : BitVec 32) (p : Port) (g : Option GateRef) (left : BitVec 24) (i : Slot) (e : Entry)
    (r : GateRef), TakesRecord s (.flowEnd h p g left) → s.booksOk → s.rtb.lookup h p = some (i, e) →
    e.gate = some r →
    ∃ t, exec (.flowEnd h p g left) s = .next t ∧ t.rtb.entry? i = none ∧
      t.gpm.gate r.gate = { s.gpm.gate r.gate with
        bound := none, mode := .free, divisor := 0, res := .coarse, pendingAdd := 0 } ∧
      (∃ added, OrdersMade added s t) ∧
      (t.cruAt p).s = (s.cruAt p).s ∧ (t.prcAt p).state = (s.prcAt p).state ∧
      t.rtb.ctr = { s.rtb.ctr with
        flowEnds := sat32 (s.rtb.ctr.flowEnds + 1)
        gateMismatches := if g = some r then s.rtb.ctr.gateMismatches else sat32 (s.rtb.ctr.gateMismatches + 1) } ∧
      t.gpm.frees = sat32 (s.gpm.frees + 1) ∧ t.gpm.free = s.gpm.free ++ [r.gate] ∧
      (∀ q, q ≠ p → t.prcAt q = s.prcAt q ∧ t.aduAt q = s.aduAt q ∧ t.cruAt q = s.cruAt q) ∧
      t.rtb.arrival = modAt s.rtb.arrival p (fun l => l.erase i) ∧
      t.oev = s.oev ∧ t.cmp = s.cmp ∧ t.pgs = s.pgs ∧ t.tmb = s.tmb ∧
      (e.state = .admitted →
        i ∉ (t.aduAt p).admitted ∧
        (t.cruAt p).a = (if g = some r then min 16777215 ((s.cruAt p).a + left.toNat) else (s.cruAt p).a) ∧
        (let sum := (s.cruAt p).a + left.toNat
          if g = some r ∧ 16777215 < sum then
            t.cru.overflow = sat32 (s.cru.overflow + (sum - 16777215)) ∧
            t.announces .creditOverflow (some p) (s.prcAt p).episode.number (sum - 16777215) s.stamp
          else t.cru.overflow = s.cru.overflow) ∧
        Refilled p ((s.aduAt p).admitted.erase i) (s.aduAt p).waitQ s t ∧
        (t.prcAt p).episode = Episode.admitting
          (t.refillCount p (s.admittedCount p - 1) (s.aduAt p).waitQ)
          { (s.prcAt p).episode with completed := sat32 ((s.prcAt p).episode.completed + 1) }) ∧
      (e.state = .waiting →
        t.aduAt p = ⟨(s.aduAt p).waitQ.erase i, (s.aduAt p).admitted⟩ ∧ t.cru = s.cru ∧
        (t.prcAt p).episode = { (s.prcAt p).episode with
          endedHeld := sat32 ((s.prcAt p).episode.endedHeld + 1) } ∧
        ∀ j, j ≠ i → t.rtb.entry? j = s.rtb.entry? j) ∧
      (e.state = .released →
        t.adu = s.adu ∧ t.cru = s.cru ∧ t.prc = s.prc ∧ ∀ j, j ≠ i → t.rtb.entry? j = s.rtb.entry? j)

/-- An entry in SEEN, BYPASSED or UNGATED whose age has reached the age limit is removed by its aging event;
one that has not matured, or is held by an episode, stays (R49, R43; that a command which names it changes
nothing is the model's choice, notes/assumptions/4.md). -/
def Obligations.AgingRemovesMatured : Prop :=
  ∀ (s : State) (i : Slot) (e : Entry), s.phase = .running → s.settled → s.rtb.entry? i = some e →
    s.rtb.ageLimit ≤ 2147483647 →
    ((e.state = .seen ∨ e.state = .bypassed ∨ e.state = .ungated) → s.rtb.ageLimit ≤ s.now - e.lastActivity →
      exec (.agingEvent i) s = .next { s with rtb := { s.rtb with
        table := s.rtb.table.filter fun x => x.1 ≠ i
        arrival := modAt s.rtb.arrival e.port fun l => l.erase i
        ctr := { s.rtb.ctr with agedOut := sat32 (s.rtb.ctr.agedOut + 1) } } }) ∧
    ((e.state = .waiting ∨ e.state = .admitted ∨ e.state = .released ∨ s.now - e.lastActivity < s.rtb.ageLimit) →
      exec (.agingEvent i) s = .next s)

/-! ### Gates and gate reports -/

/-- A bind takes the gate at the head of the free list, gives it the next epoch of 16 and a clean record, and
enters it into the FIFO; with an empty free list it fails. A free puts the gate at the tail with the FREE record
of R144, its epoch and last add number kept, and enters it into the FIFO (R142 to R144, R147); a second free
changes nothing (the model's choice, notes/assumptions/13.md). -/
def Obligations.GatesAreLentFromTheHead : Prop :=
  (∀ (s : State) (i : Slot) (e : Entry) (mode : GateMode) (res : Resolution), s.rtb.entry? i = some e →
    (s.gpm.free = [] → bindGate i mode res s = none) ∧
    ∀ g rest, s.gpm.free = g :: rest → ∃ t, bindGate i mode res s = some t ∧
      t.gpm.gate g = ⟨(s.gpm.gate g).epoch + 1, some ⟨e.hash, e.port⟩, mode, 0, res, 0, 0⟩ ∧
      (∀ g', g' ≠ g → t.gpm.gate g' = s.gpm.gate g') ∧ t.gpm.free = rest ∧
      t.gpm.fifo = (if g ∈ s.gpm.fifo then s.gpm.fifo else s.gpm.fifo ++ [g]) ∧
      t.gpm.binds = sat32 (s.gpm.binds + 1) ∧
      t.rtb.entry? i = some { e with gate := some ⟨g, (s.gpm.gate g).epoch + 1⟩ } ∧
      (∀ j, j ≠ i → t.rtb.entry? j = s.rtb.entry? j) ∧ t = { s with gpm := t.gpm, rtb := t.rtb }) ∧
  ∀ (s : State) (i : Slot) (e : Entry) (r : GateRef) (k : Key), s.rtb.entry? i = some e → e.gate = some r →
    (s.gpm.gate r.gate).bound = some k →
    let t := freeGateOf i s
    t.gpm.gate r.gate = { s.gpm.gate r.gate with
      bound := none, mode := .free, divisor := 0, res := .coarse, pendingAdd := 0 } ∧
    (∀ g', g' ≠ r.gate → t.gpm.gate g' = s.gpm.gate g') ∧ t.gpm.free = s.gpm.free ++ [r.gate] ∧
    t.gpm.fifo = (if r.gate ∈ s.gpm.fifo then s.gpm.fifo else s.gpm.fifo ++ [r.gate]) ∧
    t.gpm.frees = sat32 (s.gpm.frees + 1) ∧ t.rtb.entry? i = some { e with gate := none } ∧
    t = { s with gpm := t.gpm, rtb := t.rtb } ∧ freeGateOf i t = t

/-- A Gate Spent is valid when the gate is BOUND, the epoch and the flow hash agree, the echo is the last add
number and no add is pending; a valid one makes its ADMITTED entry dry, and any other is counted as stale and
has no other effect. A Hold Pressure that fails the common checks is counted as stale; a valid one writes the
held bytes, and for an ADMITTED or RELEASED entry is then ignored and counted (R134, R136, R150 to R152). -/
def Obligations.GateReportsAreChecked : Prop :=
  (∀ (s : State) (g : GateNo) (ep : BitVec 4) (h : BitVec 32) (held : BitVec 24),
    TakesRecord s (.holdPressure g ep h held) → s.settled →
    ((s.gpm.gate g).bound = none ∨ (∃ k, (s.gpm.gate g).bound = some k ∧ k.hash ≠ h) ∨ (s.gpm.gate g).epoch ≠ ep →
      exec (.holdPressure g ep h held) s = .next { s.withoutRecord (.holdPressure g ep h held) with
        gpm := { s.gpm with staleReports := sat32 (s.gpm.staleReports + 1) } }) ∧
    ∀ k i e, (s.gpm.gate g).bound = some k → k.hash = h → (s.gpm.gate g).epoch = ep →
      s.rtb.lookup h k.port = some (i, e) → s.rtb.ok → e.state = .admitted ∨ e.state = .released →
      exec (.holdPressure g ep h held) s = .next { s.withoutRecord (.holdPressure g ep h held) with
        rtb := s.rtb.modEntry i fun x => { x with lastHeld := some held }
        gpm := { s.gpm with validHold := sat32 (s.gpm.validHold + 1) }
        adu := { s.adu with ignored := sat32 (s.adu.ignored + 1) } }) ∧
  ∀ (s : State) (g : GateNo) (ep : BitVec 4) (echo : BitVec 8) (h : BitVec 32),
    TakesRecord s (.gateSpent g ep echo h) → s.settled →
    (∀ k i e, (s.gpm.gate g).bound = some k → k.hash = h → (s.gpm.gate g).epoch = ep →
      (s.gpm.gate g).lastAdd = echo → (s.gpm.gate g).pendingAdd = 0 → s.rtb.lookup h k.port = some (i, e) →
      s.rtb.ok → e.state = .admitted →
      exec (.gateSpent g ep echo h) s = .next { s.withoutRecord (.gateSpent g ep echo h) with
        rtb := s.rtb.modEntry i fun x => { x with dry := some true }
        gpm := { s.gpm with validSpent := sat32 (s.gpm.validSpent + 1) } }) ∧
    (∀ k i e, (s.gpm.gate g).bound = some k → k.hash = h → (s.gpm.gate g).epoch = ep →
      (s.gpm.gate g).lastAdd = echo → (s.gpm.gate g).pendingAdd = 0 → s.rtb.lookup h k.port = some (i, e) →
      s.rtb.ok → e.state = .waiting ∨ e.state = .released →
      exec (.gateSpent g ep echo h) s = .next { s.withoutRecord (.gateSpent g ep echo h) with
        gpm := { s.gpm with
          validSpent := sat32 (s.gpm.validSpent + 1), staleReports := sat32 (s.gpm.staleReports + 1) } }) ∧
    ((s.gpm.gate g).bound = none ∨ (∃ k, (s.gpm.gate g).bound = some k ∧ k.hash ≠ h) ∨ (s.gpm.gate g).epoch ≠ ep ∨
      (s.gpm.gate g).lastAdd ≠ echo ∨ (s.gpm.gate g).pendingAdd ≠ 0 →
      exec (.gateSpent g ep echo h) s = .next { s.withoutRecord (.gateSpent g ep echo h) with
        gpm := { s.gpm with staleReports := sat32 (s.gpm.staleReports + 1) } })

/-- A valid Hold Pressure for a WAITING entry takes it out of the wait queue. In RELIEF with fewer than 8 marks the
entry is admitted last with the overdraft mark, keeping its gate and epoch; both admission counts rise, and every
admitted gate of the port has the divisor for the new k. In PAUSED, or with 8 marks, it is bypassed: its gate is freed
to the tail of the free list, the bypassed counts rise, and BYPASS carries the episode's. The orders of the gates that
change are on their way (R125, R128, R133, R134, R144, R145, R147). -/
def Obligations.HoldPressureOnWaiting : Prop :=
  ∀ (s : State) (g : GateNo) (ep : BitVec 4) (h : BitVec 32) (held : BitVec 24) (k : Key) (i : Slot) (e : Entry),
    TakesRecord s (.holdPressure g ep h held) → s.booksOk → (s.gpm.gate g).bound = some k → k.hash = h →
    (s.gpm.gate g).epoch = ep → s.rtb.lookup h k.port = some (i, e) → e.state = .waiting →
    let p := k.port
    let x := (s.prcAt p).episode
    ∃ t, exec (.holdPressure g ep h held) s = .next t ∧ OthersKept p s t ∧
      { t.prcAt p with episode := x } = s.prcAt p ∧ (t.aduAt p).waitQ = (s.aduAt p).waitQ.erase i ∧
      i ∉ (t.aduAt p).waitQ ∧ (∃ added, OrdersMade added s t) ∧
      t.gpm.validHold = sat32 (s.gpm.validHold + 1) ∧ t.gpm.staleReports = s.gpm.staleReports ∧
      t.cru = s.cru ∧ t.oev = s.oev ∧ (∀ j, j ≠ i → t.rtb.entry? j = s.rtb.entry? j) ∧
      if (s.prcAt p).state = .relief ∧ s.overdraftCount p < 8 then
        t.rtb.entry? i = some { e with
          state := .admitted, dry := some true, overdraft := some true, lastHeld := some held } ∧
        (t.aduAt p).admitted = (s.aduAt p).admitted ++ [i] ∧ t.rated p ∧ (t.gpm.gate g).mode = .shaped ∧
        (t.gpm.gate g).bound = some k ∧ (t.gpm.gate g).epoch = ep ∧
        (t.gpm.gate g).divisor = min 4095 (((s.currentStep p).pt + 1) * (s.admittedCount p + 1) - 1) ∧
        (t.prcAt p).episode = { x with
          admissions := sat32 (x.admissions + 1), overdrafts := sat32 (x.overdrafts + 1) } ∧
        t.adu.bypasses = s.adu.bypasses ∧ t.gpm.free = s.gpm.free
      else
        t.rtb.entry? i = some { e with state := .bypassed, gate := none, lastHeld := some held } ∧
        (t.aduAt p).admitted = (s.aduAt p).admitted ∧
        t.gpm.gate g = { s.gpm.gate g with
          bound := none, mode := .free, divisor := 0, res := .coarse, pendingAdd := 0 } ∧
        t.gpm.free = s.gpm.free ++ [g] ∧ t.gpm.frees = sat32 (s.gpm.frees + 1) ∧
        t.adu.bypasses = sat32 (s.adu.bypasses + 1) ∧
        (t.prcAt p).episode = { x with bypassed := sat32 (x.bypassed + 1) } ∧
        t.announces .bypass (some p) x.number (sat32 (x.bypassed + 1)) s.stamp

/-- The gates of a step share its aggregate rate: for k gates whose divisor is not clamped, k times the reported
rate is at most the aggregate base/(Pt + 1) and short of it by at most k - 1 kb/s (R165, R167, Table 10-2). -/
def Obligations.GatesShareTheAggregate : Prop :=
  ∀ (res : Resolution) (pt k : Nat), pt ≤ 4095 → 1 ≤ k →
    gateDivisor pt k = min 4095 ((pt + 1) * k - 1) ∧
    ((pt + 1) * k ≤ 4096 →
      k * reportedRate res (gateDivisor pt k) ≤ reportedRate res pt ∧
      reportedRate res pt ≤ k * reportedRate res (gateDivisor pt k) + (k - 1)) ∧
    (4096 ≤ (pt + 1) * k → reportedRate res (gateDivisor pt k) = (match res with | .coarse => 25000 | .fine => 2500))

/-! ### The relief cycle -/

/-- The expiries that move a port without an episode: debounce qualifies a port in WATCH, here where the opening
condition is not met; stale returns WATCH to IDLE; cooldown returns COOLDOWN to IDLE (R21, R92 to R94, R104). A
command that names a timer which is not due changes nothing, which is the model's choice
(notes/assumptions/4.md). -/
def Obligations.TimersMoveThePort : Prop :=
  ∀ (s : State) (p : Port), s.phase = .running → s.settled → (s.prcAt p).timersOk →
    let q := s.prcAt p
    (∀ a b, q.state = .watch → q.debounce = .running a b → a + b ≤ s.now →
      s.fanIn p < q.config.fanIn ∨ s.pgs.programs[q.config.program] = [] →
      exec (.debounceExpiry p) s = .next (s.modPrc p fun q => { q with debounce := .stopped, qualified := true })) ∧
    (∀ a b, q.state = .watch → q.stale = .running a b → a + b ≤ s.now →
      exec (.staleExpiry p) s = .next (s.modPrc p fun q => { q with
        state := .idle, qualified := false, debounce := .stopped, stale := .stopped })) ∧
    (∀ a b, q.state = .cooldown → q.cooldown = .running a b → a + b ≤ s.now →
      exec (.cooldownExpiry p) s = .next (s.modPrc p fun q => { q with state := .idle, cooldown := .stopped })) ∧
    ((∀ a b, q.debounce = .running a b → s.now < a + b) → exec (.debounceExpiry p) s = .next s) ∧
    ((∀ a b, q.stale = .running a b → s.now < a + b) → exec (.staleExpiry p) s = .next s) ∧
    ((∀ a b, q.guard = .running a b → s.now < a + b) → exec (.guardExpiry p) s = .next s) ∧
    ((∀ a b, q.drain = .running a b → s.now < a + b) → exec (.drainExpiry p) s = .next s) ∧
    ((∀ a b, q.cooldown = .running a b → s.now < a + b) → exec (.cooldownExpiry p) s = .next s)

/-- An episode opens: AUTO on the configured program at the debounce expiry, at an accepted report at or above
Lw in a qualified WATCH, and at the Sighting of a new eligible key in a qualified WATCH, when the fan-in is at or
above F and the program is not empty; MANUAL on the program named at START_RELIEF in IDLE, WATCH and COOLDOWN, whose
reply carries the episode number (R46, R91 to R93, R95, R105, R110, R111, R122, R129). That the reply begins before a
notice of the same event is deduced (notes/assumptions/8.md). -/
def Obligations.EpisodeOpens : Prop :=
  ∀ (s : State) (p : Port), s.phase = .running → s.booksOk → (s.prcAt p).timersOk →
    let c := (s.prcAt p).config
    (∀ a b, (s.prcAt p).state = .watch → (s.prcAt p).debounce = .running a b → a + b ≤ s.now →
      c.fanIn ≤ s.fanIn p → s.pgs.programs[c.program] ≠ [] →
      ∃ t, exec (.debounceExpiry p) s = .next t ∧ EpisodeOpened p .auto c.program s t) ∧
    (∀ (seq cells : BitVec 16) (d : BitVec 32), TakesRecord s (.occupancy p seq cells d) →
      (s.oevAt p).accepts seq → (s.prcAt p).state = .watch → (s.prcAt p).qualified = true →
      c.lw ≤ levelOf s.oev.sets[c.levelSet] cells.toNat → c.fanIn ≤ s.fanIn p → s.pgs.programs[c.program] ≠ [] →
      ∃ t, exec (.occupancyReport p seq cells d) s = .next t ∧
        EpisodeOpened p .auto c.program
          ((s.afterReport p seq cells d).modPrc p fun q => { q with stale := .running s.now c.ts }) t) ∧
    (∀ (h : BitVec 32) (ing : BitVec 6) (srv : BitVec 16) (i : Slot) (cls : Fin 9) (x : ClassParams),
      TakesRecord s (.sighting h p ing srv) → s.rtb.lookup h p = none → s.rtb.table.length < 2048 →
      s.rtb.entry? i = none → (∀ j, j < i → s.rtb.entry? j ≠ none) → s.cmp.Decides srv cls x → x.eligible = true →
      (s.prcAt p).state = .watch → (s.prcAt p).qualified = true → c.fanIn ≤ s.fanIn p + 1 →
      s.pgs.programs[c.program] ≠ [] →
      ∃ m t, exec (.sighting h p ing srv) s = .next t ∧
        EntryCreated i ⟨h, p, ing, srv, cls, x.eligible, x.band, x.cap, .seen, none, none, none, 0, none, s.now, s.now⟩
          (s.withoutRecord (.sighting h p ing srv)) m ∧
        EpisodeOpened p .auto c.program m t) ∧
    ∀ (tag pb qb : Byte) (q : ProgNo), pb.toNat = p.val → qb.toNat = q.val → Takes s ⟨0x24, tag, [pb, qb]⟩ →
      (s.prcAt p).state = .idle ∨ (s.prcAt p).state = .watch ∨ (s.prcAt p).state = .cooldown →
      s.pgs.programs[q] ≠ [] →
      ∃ t, exec (.startRelief tag [pb, qb]) s = .next t ∧ EpisodeOpened p .manual q s t ∧
        t.clc = s.clc.answered ⟨0xA4, tag, 0 :: be 4 t.prc.episodeCounter⟩

/-- An episode ends, with its EPISODE_END, and no new one opens: STALE at the stale expiry, with TELEMETRY_STALE;
DRAIN_STALL at the drain expiry, with DRAIN_STALL; COMPLETED at an accepted report at or below Ld in DRAIN; ABORTED at
STOP_RELIEF; each to COOLDOWN with the cooldown timer started with Tc, or to IDLE with Tc 0, or for a stall with action
DISARM to DISARMED, with PORT_DISARMED; DISARMED at DISARM (R89, R100 to R103, R106, R138). Every gate that the port's
entries held is freed in the order of the arrival list, and its FREE order is in the pending-order FIFO, or in the order
frame that a free lane has begun with the first 32 of it (R15, R41, R144, R147). That a reply begins before a notice of
the same event is deduced (notes/assumptions/8.md). -/
def Obligations.EpisodeEnds : Prop :=
  ∀ (s : State) (p : Port), s.phase = .running → s.booksOk → (s.prcAt p).timersOk →
    (s.prcAt p).state.hasEpisode = true →
    let q := s.prcAt p
    let next : PortState := if q.config.tc = 0 then .idle else .cooldown
    (∀ a b, q.stale = .running a b → a + b ≤ s.now →
      ∃ m t, exec (.staleExpiry p) s = .next t ∧ EpisodeEnded p .stale next s m t ∧ s.laneTakes m t ∧
        (q.config.tc ≠ 0 → (t.prcAt p).cooldown = .running s.now q.config.tc) ∧
        t.announces .telemetryStale (some p) q.episode.number q.state.code s.stamp) ∧
    (∀ a b, q.state = .drain → q.drain = .running a b → a + b ≤ s.now →
      (q.config.stall = .disarm → ∃ m t, exec (.drainExpiry p) s = .next t ∧
        EpisodeEnded p .drainStall .disarmed s m t ∧ s.laneTakes m t ∧
        t.announces .drainStall (some p) q.episode.number (s.oevAt p).level s.stamp ∧
        t.announces .portDisarmed (some p) q.episode.number 0 s.stamp) ∧
      (q.config.stall = .cooldown → q.standby = none → ∃ m t, exec (.drainExpiry p) s = .next t ∧
        EpisodeEnded p .drainStall next s m t ∧ s.laneTakes m t ∧
        t.announces .drainStall (some p) q.episode.number (s.oevAt p).level s.stamp)) ∧
    (∀ (seq cells : BitVec 16) (d : BitVec 32), TakesRecord s (.occupancy p seq cells d) →
      q.state = .drain → q.standby = none → (s.oevAt p).accepts seq →
      levelOf s.oev.sets[q.config.levelSet] cells.toNat ≤ q.config.ld →
      ∃ m t, exec (.occupancyReport p seq cells d) s = .next t ∧
        EpisodeEnded p .completed next (s.afterReport p seq cells d) m t ∧ s.laneTakes m t) ∧
    (∀ tag pb : Byte, pb.toNat = p.val → Takes s ⟨0x25, tag, [pb]⟩ →
      ∃ m t, exec (.stopRelief tag [pb]) s = .next t ∧ EpisodeEnded p .aborted next s m t ∧ s.laneTakes m t ∧
        t.clc = s.clc.answered ⟨0xA5, tag, [0, if q.standby = none then 0 else 2]⟩) ∧
    ∀ tag pb : Byte, pb.toNat = p.val → Takes s ⟨0x23, tag, [pb]⟩ →
      ∃ m t, exec (.disarm tag [pb]) s = .next t ∧ EpisodeEnded p .disarmed .disarmed s m t ∧ s.laneTakes m t ∧
        t.clc = s.clc.answered ⟨0xA3, tag, [0, BitVec.ofNat 8 q.state.code]⟩

/-- A program held in standby starts when the episode ends COMPLETED, or DRAIN_STALL with the stall action
COOLDOWN: within the same event a MANUAL episode opens on it, with the next episode number, and STANDBY_START carries
that number and the program beside the ended episode's EPISODE_END (R95, R100, R102, R103). The end frees every gate the
port's entries held, in arrival-list order, into the free list and the FIFO that the opening finds, and a gate bound
again leaves with one order, of the new binding (R41, R138, R144, R147). -/
def Obligations.StandbyStartsAfterTheEnd : Prop :=
  ∀ (s : State) (p : Port) (n : ProgNo), s.phase = .running → s.booksOk → (s.prcAt p).timersOk →
    (s.prcAt p).state = .drain → (s.prcAt p).standby = some n →
    let q := s.prcAt p
    (∀ a b, q.drain = .running a b → a + b ≤ s.now → q.config.stall = .cooldown →
      ∃ m t, exec (.drainExpiry p) s = .next t ∧ EpisodeEnded p .drainStall .drain s m.gpm m ∧
        EpisodeOpened p .manual n m t ∧
        t.announces .drainStall (some p) q.episode.number (s.oevAt p).level s.stamp ∧
        t.announces .episodeEnd (some p) q.episode.number EpisodeOutcome.drainStall.code s.stamp ∧
        t.announces .standbyStart (some p) t.prc.episodeCounter n.val s.stamp) ∧
    ∀ (seq cells : BitVec 16) (d : BitVec 32), TakesRecord s (.occupancy p seq cells d) →
      (s.oevAt p).accepts seq → levelOf s.oev.sets[q.config.levelSet] cells.toNat ≤ q.config.ld →
      ∃ m t, exec (.occupancyReport p seq cells d) s = .next t ∧
        EpisodeEnded p .completed .drain (s.afterReport p seq cells d) m.gpm m ∧
        EpisodeOpened p .manual n m t ∧
        t.announces .episodeEnd (some p) q.episode.number EpisodeOutcome.completed.code s.stamp ∧
        t.announces .standbyStart (some p) t.prc.episodeCounter n.val s.stamp

/-- The guard of a step in RELIEF runs out, and the step ends by guard: the count of steps ended so rises. With a next
step, that step is entered: the index and the counts advance, S is 0 and A stays, its guard starts, waiting entries are
admitted up to its width, every admitted gate has its divisor and resolution, its order on its way where they
changed, and EPISODE_STEP carries the index with
128 added. After the last step the port enters DRAIN: the drain timer starts, every held and admitted entry becomes
RELEASED with its gate OPEN, the pending add not sent and the order on its way, in arrival-list order, and A and S
stay (R99, R110 to R112, R116, R121, R122, R133, R137, R145, R147, R165). -/
def Obligations.GuardEndsTheStep : Prop :=
  ∀ (s : State) (p : Port) (a b : Nat), s.phase = .running → s.booksOk → (s.prcAt p).timersOk →
    (s.prcAt p).state = .relief → (s.prcAt p).guard = .running a b → a + b ≤ s.now →
    ∃ t, exec (.guardExpiry p) s = .next t ∧ OthersKept p s t ∧
      StepEnded p true (s.modPrc p fun q => { q with
        guard := .stopped, episode := { q.episode with stepsByGuard := q.episode.stepsByGuard + 1 } }) t

/-! ### The port requests -/

/-- The requests that change a port without opening or ending an episode, or refuse to: ARM moves DISARMED to
IDLE and changes nothing elsewhere; DISARM moves IDLE, WATCH and COOLDOWN to DISARMED and answers the state it
found; STOP_RELIEF without an episode changes nothing and says so; START_RELIEF with an episode fills the empty
standby slot (QUEUED) or names the program it holds (BUSY), and is refused NOT_ARMED in DISARMED and EMPTY for an
empty program; PAUSE and RESUME are refused with STATE outside RELIEF and PAUSED (R88, R89, R97, R98, R105,
R106). -/
def Obligations.PortRequestsByState : Prop :=
  ∀ (s : State) (p : Port) (tag pb : Byte), s.laneSettled → (s.prcAt p).timersOk → pb.toNat = p.val →
    let st := (s.prcAt p).state
    let q := s.prcAt p
    (Takes s ⟨0x22, tag, [pb]⟩ → exec (.arm tag [pb]) s = .next
      { s.modPrc p (fun q => { q with state := if q.state = .disarmed then .idle else q.state }) with
        clc := s.clc.answered ⟨0xA2, tag, [0]⟩ }) ∧
    (Takes s ⟨0x23, tag, [pb]⟩ → st.hasEpisode = false → exec (.disarm tag [pb]) s = .next
      { s.modPrc p (fun q => { q with
          state := .disarmed, qualified := false, debounce := .stopped, stale := .stopped, cooldown := .stopped }) with
        clc := s.clc.answered ⟨0xA3, tag, [0, BitVec.ofNat 8 st.code]⟩ }) ∧
    (Takes s ⟨0x25, tag, [pb]⟩ → st.hasEpisode = false → exec (.stopRelief tag [pb]) s = .next
      { s with clc := s.clc.answered ⟨0xA5, tag, [0, 1]⟩ }) ∧
    (∀ qb : Byte, Takes s ⟨0x24, tag, [pb, qb]⟩ →
      (16 ≤ qb.toNat → exec (.startRelief tag [pb, qb]) s = .next
        { s with clc := s.clc.answered ⟨0xA4, tag, [5]⟩ }) ∧
      ∀ n : ProgNo, qb.toNat = n.val →
        (st = .disarmed → exec (.startRelief tag [pb, qb]) s = .next
          { s with clc := s.clc.answered ⟨0xA4, tag, [13]⟩ }) ∧
        (st ≠ .disarmed → s.pgs.programs[n] = [] → exec (.startRelief tag [pb, qb]) s = .next
          { s with clc := s.clc.answered ⟨0xA4, tag, [11]⟩ }) ∧
        (st.hasEpisode = true → s.pgs.programs[n] ≠ [] → q.standby = none →
          exec (.startRelief tag [pb, qb]) s = .next
            { s.modPrc p (fun q => { q with standby := some n }) with
              clc := s.clc.answered ⟨0xA4, tag, [1, qb]⟩ }) ∧
        (∀ m, st.hasEpisode = true → s.pgs.programs[n] ≠ [] → q.standby = some m →
          exec (.startRelief tag [pb, qb]) s = .next
            { s with clc := s.clc.answered ⟨0xA4, tag, [2, BitVec.ofNat 8 m.val]⟩ })) ∧
    (Takes s ⟨0x26, tag, [pb]⟩ → st ≠ .relief → exec (.pause tag [pb]) s = .next
      { s with clc := s.clc.answered ⟨0xA6, tag, [12]⟩ }) ∧
    (Takes s ⟨0x27, tag, [pb]⟩ → st ≠ .paused → exec (.resume tag [pb]) s = .next
      { s with clc := s.clc.answered ⟨0xA7, tag, [12]⟩ })

/-- PAUSE in RELIEF freezes the guard and the episode clock; RESUME in PAUSED lets both run on and then admits
waiting entries up to the width, in queue order, with the divisor for the new k and the orders on their way; where the width is filled or none
waits, the state is written out. A port number above 47 refuses every port request with RANGE alone (R22, R85, R97,
R98, R120, R132, R133). -/
def Obligations.PauseAndResume : Prop :=
  (∀ (s : State) (p : Port) (tag pb : Byte), s.laneSettled → (s.prcAt p).timersOk → pb.toNat = p.val →
    (Takes s ⟨0x26, tag, [pb]⟩ → (s.prcAt p).state = .relief → exec (.pause tag [pb]) s = .next
      { s.modPrc p (fun q => { q with
          state := .paused
          guard := match q.guard with | .running a b => .frozen (s.now - a) b | g => g
          episode := { q.episode with clock := ⟨q.episode.clock.read s.now, none⟩ } }) with
        clc := s.clc.answered ⟨0xA6, tag, [0]⟩ }) ∧
    (Takes s ⟨0x27, tag, [pb]⟩ → (s.prcAt p).state = .paused →
      (s.currentStep p).width ≤ s.admittedCount p ∨ (s.aduAt p).waitQ = [] →
      exec (.resume tag [pb]) s = .next
        { s.modPrc p (fun q => { q with
            state := .relief
            guard := match q.guard with | .frozen e n => .running s.now (n - e) | g => g
            episode := { q.episode with clock := ⟨q.episode.clock.counted, some s.now⟩ } }) with
          clc := s.clc.answered ⟨0xA7, tag, [0]⟩ })) ∧
  (∀ (s : State) (p : Port) (tag pb : Byte), s.booksOk → (s.prcAt p).timersOk → pb.toNat = p.val →
    Takes s ⟨0x27, tag, [pb]⟩ → (s.prcAt p).state = .paused → s.admittedCount p < (s.currentStep p).width →
    (s.aduAt p).waitQ ≠ [] →
    ∃ t, exec (.resume tag [pb]) s = .next t ∧ OthersKept p s t ∧
      t.prcAt p = { s.prcAt p with
        state := .relief
        guard := match (s.prcAt p).guard with | .frozen e n => .running s.now (n - e) | g => g
        episode := Episode.admitting (t.refillCount p (s.admittedCount p) (s.aduAt p).waitQ)
          { (s.prcAt p).episode with clock := ⟨(s.prcAt p).episode.clock.counted, some s.now⟩ } } ∧
      Refilled p (s.aduAt p).admitted (s.aduAt p).waitQ s t ∧ t.cru = s.cru ∧ t.oev = s.oev ∧
      t.clc = s.clc.answered ⟨0xA7, tag, [0]⟩) ∧
  ∀ (s : State) (i : Instr) (r : CtlFrame), s.laneSettled → requestOf i = some r → Takes s r →
    r.kind ∈ [0x20#8, 0x21, 0x22, 0x23, 0x24, 0x25, 0x26, 0x27] → bodyLength r.kind r.body = some r.body.length →
    wellFormed i = true → 48 ≤ fieldAt r.body 0 1 →
    exec i s = .next { s with clc := s.clc.answered ⟨r.kind + 128, r.tag, [5]⟩ }

/-- SET_PORT on a port that is not DISARMED is refused with STATE; otherwise the first field out of range, in the
order of Table 6-1, is named by its position, with Ld at or above Lw last; a request that passes replaces the
configuration whole, a Ts of 0 stored as 1, and answers it as stored (R85, R187). -/
def Obligations.SetPortChecksAndStores : Prop :=
  ∀ (s : State) (p : Port) (tag : Byte) (b : List Byte), s.laneSettled → Takes s ⟨0x20, tag, b⟩ → b.length = 19 →
    fieldAt b 0 1 = p.val →
    let f := fieldAt b
    let bad : Option (Byte × Bool) := [(1, decide (15 < f 1 1)), (2, decide (3 < f 2 1)),
      (3, f 3 1 == 0 || decide (15 < f 3 1)), (4, decide (14 < f 4 1)), (6, f 7 1 == 0),
      (8, f 10 4 == 0 || decide (16777215 < f 10 4)), (9, decide (16777215 < f 14 4)), (10, decide (1 < f 18 1)),
      (4, decide (f 3 1 ≤ f 4 1))].find? (·.2)
    ((s.prcAt p).state ≠ .disarmed → exec (.setPort tag b) s = .next
      { s with clc := s.clc.answered ⟨0xA0, tag, [12]⟩ }) ∧
    (∀ x, (s.prcAt p).state = .disarmed → bad = some x → exec (.setPort tag b) s = .next
      { s with clc := s.clc.answered ⟨0xA0, tag, [5, x.1]⟩ }) ∧
    ((s.prcAt p).state = .disarmed → bad = none → ∃ c : PortConfig,
      c.program.val = f 1 1 ∧ c.levelSet.val = f 2 1 ∧ c.lw = f 3 1 ∧ c.ld = f 4 1 ∧ c.td = f 5 2 ∧ c.fanIn = f 7 1 ∧
      c.ts = (if f 8 2 = 0 then 1 else f 8 2) ∧ c.tdr = f 10 4 ∧ c.tc = f 14 4 ∧
      c.stall = (if f 18 1 = 0 then .cooldown else .disarm) ∧
      exec (.setPort tag b) s = .next { s.modPrc p (fun q => { q with config := c }) with
        clc := s.clc.answered ⟨0xA0, tag, 0 :: ((b.drop 1).take 7 ++ be 2 c.ts ++ b.drop 10)⟩ })

/-- GET_PORT answers the port's configuration and state record in 71 bytes, each field of Table 13-8 at its offset, and
changes nothing; only the model's counter of free values moves, when the standby slot is absent (R86, Table 13-8; the
value of that byte is the model's free value, notes/assumptions/2.md). The episode clock is read as it stands (R120).
The rate is that of the divisor for the present k
and the current step, and 0 when k is 0; without an episode, and in DRAIN, k, the overdraft count, the wait-queue length
and the rate are 0 (R165, R167). -/
def Obligations.GetPortReports : Prop :=
  ∀ (s : State) (p : Port) (tag pb : Byte), s.laneSettled → pb.toNat = p.val → Takes s ⟨0x21, tag, [pb]⟩ →
    let q := s.prcAt p
    let c := q.config
    let o := s.oevAt p
    let x := q.episode
    let k := s.admittedCount p
    let st := s.currentStep p
    let base := match st.res with | .coarse => 102400000 | .fine => 10240000
    let r := s.portRecord p
    exec (.getPort tag [pb]) s = .next { s with
      free := if q.standby = none then s.free + 1 else s.free
      clc := s.clc.answered ⟨0xA1, tag, 0 :: r⟩ } ∧
    r.length = 71 ∧
    Laid r [(0, 1, c.program.val), (1, 1, c.levelSet.val), (2, 1, c.lw), (3, 1, c.ld), (4, 2, c.td), (6, 1, c.fanIn),
      (7, 2, c.ts), (9, 4, c.tdr), (13, 4, c.tc), (17, 1, if c.stall = .cooldown then 0 else 1),
      (18, 1, q.state.code), (19, 1, if q.qualified then 1 else 0), (20, 2, s.fanIn p),
      (22, 1, if o.baseline then 1 else 0), (23, 1, o.level), (24, 1, o.peak),
      (25, 4, o.accepted), (29, 4, o.stale), (33, 4, o.clamps),
      (37, 4, x.number), (41, 1, if x.origin = .manual then 1 else 0), (42, 1, x.program.val),
      (43, 1, if q.state.hasEpisode then 255 else match x.outcome with | some y => y.code | none => 0),
      (44, 4, x.openTime.toNat), (48, 1, x.stepIndex), (49, 4, match x.clock.since with | none => x.clock.counted | some a => sat32 (x.clock.counted + (s.now - a))),
      (53, 4, (s.cruAt p).a), (57, 4, (s.cruAt p).s), (61, 1, k), (62, 1, s.overdraftCount p),
      (63, 2, (s.aduAt p).waitQ.length),
      (65, 4, if k = 0 then 0 else base / (min 4095 ((st.pt + 1) * k - 1) + 1)),
      (69, 1, if q.standby = none then 0 else 1)] ∧
    (∀ n, q.standby = some n → fieldAt r 70 1 = n.val) ∧
    (s.booksOk → q.state ≠ .relief → q.state ≠ .paused → Laid r [(61, 1, 0), (62, 1, 0), (63, 2, 0), (65, 4, 0)])

/-! ### The link requests -/

/-- LINK_START, LINK_RESET and LINK_STOP by link state: LINK_START begins in DOWN with both sequences and the
error count at 0 and a frame at once, of orders if the FIFO holds gates and an idle frame otherwise; LINK_RESET leaves FAULTED with the same values and no frame of its own, and UP and SYNCING after the
teardown; LINK_STOP runs the teardown in UP and SYNCING and enters STOPPING, or DOWN at once when the transmitter
has nothing left to send; the other states refuse with STATE, or answer OK unchanged. Every reply carries the
link state code that then holds (R9 to R12, R16, R17). That a LINK_STOP which finds nothing to send answers with
DOWN, and that the reply begins before the LINK_STATE notice, are deduced (notes/assumptions/15.md and 8.md). -/
def Obligations.LinkRequestsByState : Prop :=
  ∀ (s : State) (tag : Byte),
    (Takes s ⟨0x10, tag, []⟩ → s.laneSettled →
      (s.flc.link = .down → s.flc.tx = none → s.gpm.fifo = [] → exec (.linkStart tag []) s = .next { s with
        flc := { s.flc with
          link := .syncing, expected := 0, errCount := 0, outSeq := 1, rx := .hunting, idle := .running s.now
          tx := some (fabricFrame 0 [])
          ctr := { s.flc.ctr with framesSent := sat32 (s.flc.ctr.framesSent + 1) } }
        ern := s.ern.raise .linkState none 0 1 s.stamp
        clc := s.clc.answered ⟨0x90, tag, [0, 1]⟩ }) ∧
      (s.flc.link = .down → s.flc.tx = none → s.gpm.fifo ≠ [] → exec (.linkStart tag []) s = .next { s with
        flc := { s.flc with
          link := .syncing, expected := 0, errCount := 0, outSeq := 1, rx := .hunting, idle := .running s.now
          tx := some (fabricFrame 0 (s.gpm.orders.map GateOrder.bytes))
          ctr := { s.flc.ctr with
            framesSent := sat32 (s.flc.ctr.framesSent + 1)
            ordersSent := sat32 (s.flc.ctr.ordersSent + min 32 s.gpm.fifo.length) } }
        gpm := s.gpm.takeBatch
        ern := s.ern.raise .linkState none 0 1 s.stamp
        clc := s.clc.answered ⟨0x90, tag, [0, 1]⟩ }) ∧
      (s.flc.link ≠ .down → exec (.linkStart tag []) s = .next { s with
        clc := s.clc.answered ⟨0x90, tag, [12, BitVec.ofNat 8 s.flc.link.code]⟩ })) ∧
    (Takes s ⟨0x12, tag, []⟩ → s.laneSettled →
      (s.flc.link = .faulted → exec (.linkReset tag []) s = .next { s with
        flc := { s.flc with link := .syncing, expected := 0, errCount := 0, outSeq := 0, rx := .hunting }
        ern := s.ern.raise .linkState none 0 1 s.stamp
        clc := s.clc.answered ⟨0x92, tag, [0, 1]⟩ }) ∧
      (s.flc.link = .down ∨ s.flc.link = .stopping → exec (.linkReset tag []) s = .next { s with
        clc := s.clc.answered ⟨0x92, tag, [12, BitVec.ofNat 8 s.flc.link.code]⟩ }) ∧
      (s.flc.link = .up ∨ s.flc.link = .syncing → s.booksOk → s.prc.timersOk →
        ∃ t, exec (.linkReset tag []) s = .next t ∧ TornDown .linkReset s t ∧ FreeOrdersMade s t ∧
          t.announces .linkState none 0 1 s.stamp ∧ t.flc.link = .syncing ∧
          t.flc.expected = 0 ∧ t.flc.errCount = 0 ∧ t.flc.rx = .hunting ∧
          t.flc.outSeq = (if s.flc.tx = none ∧ t.flc.tx ≠ none then 1 else 0) ∧
          t.clc = s.clc.answered ⟨0x92, tag, [0, 1]⟩)) ∧
    (Takes s ⟨0x11, tag, []⟩ → s.laneSettled →
      (s.flc.link = .down ∨ s.flc.link = .stopping → exec (.linkStop tag []) s = .next { s with
        clc := s.clc.answered ⟨0x91, tag, [0, BitVec.ofNat 8 s.flc.link.code]⟩ }) ∧
      (s.flc.link = .faulted → s.flc.tx ≠ none → exec (.linkStop tag []) s = .next { s with
        flc := { s.flc with link := .stopping, errCount := 0 }
        ern := s.ern.raise .linkState none 0 4 s.stamp
        clc := s.clc.answered ⟨0x91, tag, [0, 4]⟩ }) ∧
      (s.flc.link = .faulted → s.flc.tx = none → exec (.linkStop tag []) s = .next { s with
        flc := { s.flc with link := .down, errCount := 0, rx := .hunting, idle := .stopped }
        ern := (s.ern.raise .linkState none 0 4 s.stamp).raise .linkState none 0 0 s.stamp
        clc := s.clc.answered ⟨0x91, tag, [0, 0]⟩ }) ∧
      (s.flc.link = .up ∨ s.flc.link = .syncing → s.booksOk → s.prc.timersOk →
        ∃ t, exec (.linkStop tag []) s = .next t ∧ TornDown .linkStop s t ∧ FreeOrdersMade s t ∧
          t.announces .linkState none 0 t.flc.link.code s.stamp ∧
          t.flc.link = (if t.flc.tx = none then .down else .stopping) ∧
          t.clc = s.clc.answered ⟨0x91, tag, [0, BitVec.ofNat 8 t.flc.link.code]⟩))

/-! ### The requests of the device and its tables -/

/-- IDENTIFY, TIME and STATUS change nothing. IDENTIFY answers the seven characters NF-4812, revision 1 and the
48-bit serial number; TIME the time base counter; STATUS 187 bytes, the link state code, the error count and the fault
limit in one byte each and then the other 46 values of R189, 4 bytes each, in the order of its table (R188, R189, Table
13-8). That STATUS counts its own request as received, but neither its reply as composed nor its request as waiting, is
deduced (notes/assumptions/14.md), and that the counter of requests received saturates is the model's choice
(notes/assumptions/21.md). -/
def Obligations.IdentifyTimeStatus : Prop :=
  ∀ (s : State) (tag : Byte), s.laneSettled →
    (Takes s ⟨0x01, tag, []⟩ → exec (.identify tag []) s = .next { s with
      clc := s.clc.answered ⟨0x81, tag, [0, 78, 70, 45, 52, 56, 49, 50, 1] ++ be 6 Config.serialNumber.toNat⟩ }) ∧
    (Takes s ⟨0x04, tag, []⟩ → exec (.time tag []) s = .next { s with
      clc := s.clc.answered ⟨0x84, tag, 0 :: be 4 (s.tmb.micros % 4294967296)⟩ }) ∧
    (Takes s ⟨0x03, tag, []⟩ → ∃ r : List Byte, exec (.status tag []) s = .next { s with
        clc := s.clc.answered ⟨0x83, tag, 0 :: r⟩ } ∧ r.length = 187 ∧
      Laid r [(0, 1, s.flc.link.code), (1, 1, s.flc.errCount), (2, 1, s.flc.faultLimit)] ∧
      let l := s.flc.ctr
      let e := s.rtb.ctr
      let c := s.clc.ctr
      let values := [
        l.wellFormed, l.malformed, l.lost, l.discarded, l.recordErrors, l.linkFaults, l.framesSent, l.ordersSent,
        s.rtb.table.length, s.rtb.ageLimit, e.sightings, e.created, e.evictions, e.lost, e.agedOut, e.flowEnds,
        e.unknownEnds, e.gateMismatches, s.adu.shortages, s.adu.bypasses, s.adu.ignored,
        s.gpm.free.length, s.gpm.fifo.length, s.gpm.binds, s.gpm.frees, s.gpm.validSpent, s.gpm.validHold,
        s.gpm.staleReports, s.cru.overflow, s.ern.history.length, s.ern.written, s.ern.dropped,
        s.ern.pendingSet.length, s.ern.sent, s.ern.coalesced, s.ern.suppressed,
        if s.clc.requests = [] then sat32 (c.received + 1) else c.received, c.skipped, c.gapErrors, c.crcErrors,
        c.lengthErrors, c.framingErrors, c.overruns, c.composed, c.sent, s.clc.requests.tail.length]
      ∀ j (h : j < values.length), fieldAt r (3 + 4 * j) 4 = values[j] % 4294967296)

/-- SET_LEVELS refuses a set above 3 with RANGE and a falling threshold with ORDER, naming the lowest; otherwise
it replaces all fifteen thresholds of the set. GET_LEVELS answers the fifteen thresholds, T1 first, or RANGE
(R33, R34). -/
def Obligations.LevelSetsAreWrittenAndRead : Prop :=
  ∀ (s : State) (tag : Byte), s.laneSettled →
    (∀ b : List Byte, b.length = 31 → Takes s ⟨0x30, tag, b⟩ →
      (4 ≤ fieldAt b 0 1 → exec (.setLevels tag b) s = .next { s with clc := s.clc.answered ⟨0xB0, tag, [5]⟩ }) ∧
      ∀ k : Fin 4, fieldAt b 0 1 = k.val →
        (∀ i, 2 ≤ i → i ≤ 15 → (fieldAt b (2 * i - 1) 2 < fieldAt b (2 * i - 3) 2) →
          (∀ j, 2 ≤ j → j < i → fieldAt b (2 * j - 3) 2 ≤ fieldAt b (2 * j - 1) 2) →
          exec (.setLevels tag b) s =
            .next { s with clc := s.clc.answered ⟨0xB0, tag, [6, BitVec.ofNat 8 i]⟩ }) ∧
        ((∀ j, 2 ≤ j → j ≤ 15 → fieldAt b (2 * j - 3) 2 ≤ fieldAt b (2 * j - 1) 2) →
          ∃ v : Vector Nat 15, (∀ i : Fin 15, v[i] = fieldAt b (1 + 2 * i.val) 2) ∧
          exec (.setLevels tag b) s = .next { s with
            oev := { s.oev with sets := s.oev.sets.set k.val v k.isLt }
            clc := s.clc.answered ⟨0xB0, tag, [0]⟩ })) ∧
    ∀ kb : Byte, Takes s ⟨0x31, tag, [kb]⟩ →
      (4 ≤ kb.toNat → exec (.getLevels tag [kb]) s = .next { s with clc := s.clc.answered ⟨0xB1, tag, [5]⟩ }) ∧
      ∀ k : Fin 4, kb.toNat = k.val → ∃ r : List Byte, r.length = 30 ∧
        (∀ i : Fin 15, fieldAt r (2 * i.val) 2 = s.oev.sets[k][i] % 65536) ∧
        exec (.getLevels tag [kb]) s = .next { s with clc := s.clc.answered ⟨0xB1, tag, 0 :: r⟩ }

/-- SET_WINDOW refuses the first field out of range with RANGE and its code, a base that is not a multiple of 2^k
with ALIGN, and an enabled window that shares a service number with another enabled window of its rank with
OVERLAP and the lowest such window; otherwise the window is replaced, its cap stored as R61 says, its match count 0,
and the fields are answered as stored. A window covers
the service numbers from its base to base + 2^k - 1. GET_WINDOW answers a window or the default class with its match count;
SET_DEFAULT_CLASS replaces the default class (R60, R61, R64 to R68, R187). -/
def Obligations.WindowsAreWrittenAndRead : Prop :=
  (∀ (w : Window) (n : BitVec 16), 2 ^ w.size.val ∣ w.base.toNat →
    (w.covers n = true ↔ w.base.toNat ≤ n.toNat ∧ n.toNat ≤ w.base.toNat + 2 ^ w.size.val - 1)) ∧
  ∀ (s : State) (tag : Byte), s.laneSettled →
    (∀ b : List Byte, b.length = 12 → Takes s ⟨0x38, tag, b⟩ →
      let f := fieldAt b
      let bad : Option (Byte × Bool) := [(0, decide (7 < f 0 1)), (1, decide (15 < f 4 1)), (2, decide (3 < f 7 1)),
        (3, decide (1 < f 1 1)), (4, decide (1 < f 5 1)), (5, decide (1 < f 6 1))].find? (·.2)
      (∀ x, bad = some x → exec (.setWindow tag b) s = .next
        { s with clc := s.clc.answered ⟨0xB8, tag, [5, x.1]⟩ }) ∧
      ∀ (i : Fin 8) (w : Window), bad = none → i.val = f 0 1 → w.enable = (f 1 1 == 1) →
        w.base.toNat = f 2 2 → w.size.val = f 4 1 → w.rank = (if f 5 1 = 0 then .pinned else .broad) →
        w.params.eligible = (f 6 1 == 1) → w.params.band.val = f 7 1 →
        w.params.cap = min 1048576 (max 1024 (f 8 4 / 64 * 64)) → w.hits = 0 →
        (¬(2 ^ f 4 1 ∣ f 2 2) → exec (.setWindow tag b) s = .next
          { s with clc := s.clc.answered ⟨0xB8, tag, [8]⟩ }) ∧
        (2 ^ f 4 1 ∣ f 2 2 → ∀ clash : Fin 8 → Prop, (∀ j, clash j ↔ j ≠ i ∧ w.enable = true ∧
            s.cmp.windows[j].enable = true ∧ s.cmp.windows[j].rank = w.rank ∧
            ∃ n, w.covers n = true ∧ s.cmp.windows[j].covers n = true) →
          (∀ j, clash j → (∀ j', clash j' → j ≤ j') → exec (.setWindow tag b) s = .next
            { s with clc := s.clc.answered ⟨0xB8, tag, [7, BitVec.ofNat 8 j.val]⟩ }) ∧
          ((∀ j, ¬clash j) → exec (.setWindow tag b) s = .next { s with
            cmp := { s.cmp with windows := s.cmp.windows.set i.val w i.isLt }
            clc := s.clc.answered ⟨0xB8, tag, 0 :: (b.take 8 ++ be 4 w.params.cap)⟩ }))) ∧
    (∀ ib : Byte, Takes s ⟨0x39, tag, [ib]⟩ →
      (∀ i : Fin 8, ib.toNat = i.val → exec (.getWindow tag [ib]) s = .next { s with
        clc := s.clc.answered ⟨0xB9, tag, 0 :: (s.cmp.windows[i].bytes ++ be 4 s.cmp.windows[i].hits)⟩ }) ∧
      (ib = 8 → exec (.getWindow tag [ib]) s = .next { s with clc := s.clc.answered ⟨0xB9, tag,
        [0, 0, 0, 0, 0, 0] ++ s.cmp.dflt.bytes ++ be 4 s.cmp.dfltHits⟩ }) ∧
      (8 < ib.toNat → exec (.getWindow tag [ib]) s = .next { s with clc := s.clc.answered ⟨0xB9, tag, [5]⟩ })) ∧
    ∀ b : List Byte, b.length = 6 → Takes s ⟨0x3A, tag, b⟩ →
      (1 < fieldAt b 0 1 → exec (.setDefaultClass tag b) s = .next
        { s with clc := s.clc.answered ⟨0xBA, tag, [5, 0]⟩ }) ∧
      (fieldAt b 0 1 ≤ 1 → 3 < fieldAt b 1 1 → exec (.setDefaultClass tag b) s = .next
        { s with clc := s.clc.answered ⟨0xBA, tag, [5, 1]⟩ }) ∧
      ∀ c : ClassParams, fieldAt b 0 1 ≤ 1 → fieldAt b 1 1 ≤ 3 → c.eligible = (fieldAt b 0 1 == 1) →
        c.band.val = fieldAt b 1 1 → c.cap = min 1048576 (max 1024 (fieldAt b 2 4 / 64 * 64)) →
        exec (.setDefaultClass tag b) s = .next { s with
          cmp := { s.cmp with dflt := c, dfltHits := 0 }
          clc := s.clc.answered ⟨0xBA, tag, 0 :: (b.take 2 ++ be 4 c.cap)⟩ }

/-- WRITE_PROGRAM: a program above 15 is refused with RANGE 255, 0 and a count above 32 with RANGE 255, 1; then the
lowest step that fails one of items 3 to 13 of R76 is refused with RANGE, its index and the code of the first item
that fails; then a program in use with IN_USE, the lowest port that uses it and the lowest of the cases episode,
standby and, for an empty program, armed configuration that applies to that port; then NO_ROOM and the room left.
Otherwise the program becomes the steps carried, the transfer level 0 unless the kind is LEVEL, the other programs
stay, and the reply gives the free steps of the pool. READ_PROGRAM answers the stored steps in the same layout, or
RANGE (R73, R76 to R81, R187). -/
def Obligations.ProgramsAreWrittenAndRead : Prop :=
  ∀ (s : State) (tag qb : Byte), s.laneSettled →
    (∀ (nb : Byte) (recs : List (List Byte)), nb.toNat = recs.length → (∀ r ∈ recs, r.length = 16) →
      Takes s ⟨0x40, tag, qb :: nb :: recs.flatten⟩ →
      let refused (l : List Byte) := exec (.writeProgram tag (qb :: nb :: recs.flatten)) s =
        .next { s with clc := s.clc.answered ⟨0xC0, tag, l⟩ }
      (15 < qb.toNat → refused [5, 255, 0]) ∧
      ∀ q : ProgNo, qb.toNat = q.val →
        (32 < recs.length → refused [5, 255, 1]) ∧
        (recs.length ≤ 32 →
          (∀ (j : Nat) (h : j < recs.length) (code : Byte), failedItem recs[j] = some code →
            (∀ r ∈ recs.take j, failedItem r = none) → refused [5, BitVec.ofNat 8 j, code]) ∧
          ((∀ r ∈ recs, failedItem r = none) →
            let uses (p : Port) (c : Nat) : Prop :=
              (c = 0 ∧ ((s.prcAt p).state = .relief ∨ (s.prcAt p).state = .paused) ∧
                (s.prcAt p).episode.program = q) ∨
              (c = 1 ∧ (s.prcAt p).standby = some q) ∨
              (c = 2 ∧ recs = [] ∧ (s.prcAt p).state ≠ .disarmed ∧ (s.prcAt p).config.program = q)
            let rest := s.pgs.used - (s.pgs.programs[q]).length
            (∀ p c, uses p c → (∀ c', c' < c → ¬uses p c') → (∀ p' c', p' < p → ¬uses p' c') →
              refused [9, BitVec.ofNat 8 p.val, BitVec.ofNat 8 c]) ∧
            ((∀ p c, ¬uses p c) →
              (256 < rest + recs.length → refused (10 :: be 2 (256 - rest))) ∧
              (rest + recs.length ≤ 256 → ∃ steps : List Step, List.Forall₂ StepStored recs steps ∧
                (∀ st ∈ steps, st.ok) ∧
                exec (.writeProgram tag (qb :: nb :: recs.flatten)) s = .next { s with
                  pgs := ⟨s.pgs.programs.set q.val steps q.isLt⟩
                  clc := s.clc.answered ⟨0xC0, tag, [0, qb, nb] ++ be 2 (256 - (rest + recs.length))⟩ }))))) ∧
    (Takes s ⟨0x41, tag, [qb]⟩ →
      (15 < qb.toNat → exec (.readProgram tag [qb]) s = .next { s with clc := s.clc.answered ⟨0xC1, tag, [5]⟩ }) ∧
      ∀ q : ProgNo, qb.toNat = q.val → ∃ recs : List (List Byte), recs.length = (s.pgs.programs[q]).length ∧
        (∀ r ∈ recs, r.length = 16) ∧
        ((∀ st ∈ s.pgs.programs[q], st.ok) → List.Forall₂ StepStored recs s.pgs.programs[q]) ∧
        exec (.readProgram tag [qb]) s = .next { s with clc := s.clc.answered ⟨0xC1, tag,
          [0, qb, BitVec.ofNat 8 recs.length] ++ be 2 s.pgs.used ++ recs.flatten⟩ })

/-- READ_TABLE refuses a code above 3 and then a start beyond the table with RANGE; otherwise the count is the
least of the count carried, the entries to the end, and 25, 42, 15 or 31 records, and that many records of 40, 24,
64 or 32 bytes follow, laid out as Tables 13-10 to 13-13 say: an empty slot is its number and zeros, an absent field
of a responder is zero, and a FREE gate names no entry. Nothing changes, and the body is at most 1,024 bytes (R57,
R153, R172, R192, Table 12-2). That the 25 and 42 records which fit a reply go before the 42 and 127 of R57 and R153 is
deduced from R192 (notes/assumptions/19.md). -/
def Obligations.TablesAreReadInRuns : Prop :=
  ∀ (s : State) (tag : Byte) (code start count : Nat), s.laneSettled → code < 256 → start < 65536 →
    count < 65536 → s.ern.history.length ≤ 32 → Takes s ⟨0x50, tag, be 1 code ++ be 2 start ++ be 2 count⟩ →
    let i : Instr := .readTable tag (be 1 code ++ be 2 start ++ be 2 count)
    (3 < code → exec i s = .next { s with clc := s.clc.answered ⟨0xD0, tag, [5, 0]⟩ }) ∧
    ∀ k : Fin 4, code = k.val →
      let size := #v[2048, 1024, s.ern.history.length, 48][k]
      let n := min (min count (size - start)) #v[25, 42, 15, 31][k]
      (size ≤ start → exec i s = .next { s with clc := s.clc.answered ⟨0xD0, tag, [5, 1]⟩ }) ∧
      (start < size → ∃ recs : List (List Byte), recs.length = n ∧
        (∀ j (h : j < recs.length), recs[j].length = #v[40, 24, 64, 32][k] ∧
          (k = 0 → ∀ x : Slot, x.val = start + j →
            (s.rtb.entry? x = none → Laid recs[j] [(0, 2, x.val), (2, 38, 0)]) ∧
            ∀ e, s.rtb.entry? x = some e → Laid recs[j] [(0, 2, x.val),
              (2, 1, 1 + (if e.eligible then 2 else 0) + (if e.gate.isSome then 4 else 0) +
                (if e.dry.isSome then 8 else 0) + (if e.dry = some true then 16 else 0) +
                (if e.overdraft.isSome then 32 else 0) + (if e.overdraft = some true then 64 else 0) +
                if e.lastHeld.isSome then 128 else 0),
              (3, 1, [EntryState.seen, .waiting, .admitted, .released, .bypassed, .ungated].idxOf e.state),
              (4, 1, e.port.val), (5, 1, e.ingress.toNat), (6, 1, e.cls.val), (7, 1, e.band.val),
              (8, 4, e.hash.toNat), (12, 2, e.service.toNat), (14, 2, (e.gate.map fun r => r.gate.val).getD 0),
              (16, 1, (e.gate.map fun r => r.epoch.toNat).getD 0), (17, 3, (e.lastHeld.map (·.toNat)).getD 0),
              (20, 4, e.cap), (24, 4, e.granted), (28, 4, e.firstSeen), (32, 4, e.lastActivity), (36, 4, 0)]) ∧
          (k = 1 → ∀ g : GateNo, g.val = start + j → let x := s.gpm.gate g
            Laid recs[j] [(0, 2, g.val), (2, 1, if x.bound.isSome then 1 else 0), (3, 1, x.epoch.toNat),
              (4, 1, (x.bound.map fun y => y.port.val).getD 0),
              (5, 1, [GateMode.closed, .shaped, .opened, .free].idxOf x.mode), (6, 1, if x.res = .fine then 1 else 0),
              (7, 1, if g ∈ s.gpm.fifo then 1 else 0), (8, 4, (x.bound.map fun y => y.hash.toNat).getD 0),
              (12, 2, x.divisor), (14, 1, x.lastAdd.toNat), (15, 1, 0), (16, 4, x.pendingAdd),
              (20, 4, if x.mode = .shaped then reportedRate x.res x.divisor else 0)]) ∧
          (k = 2 → ∀ x : Summary, s.ern.history[start + j]? = some x →
            Laid recs[j] [(0, 4, x.number), (4, 1, x.port.val), (5, 1, x.program.val),
              (6, 1, if x.origin = .manual then 1 else 0), (7, 1, x.outcome.code), (8, 4, x.openTime.toNat),
              (12, 4, x.clock), (16, 1, x.peak), (17, 1, x.stepsEntered), (18, 1, x.stepsByGuard),
              (19, 1, if x.standbyDiscarded then 1 else 0), (20, 4, x.admissions), (24, 4, x.overdrafts),
              (28, 4, x.bypassed), (32, 4, x.ungated), (36, 4, x.completed), (40, 4, x.endedHeld),
              (44, 4, x.credited), (48, 16, 0)]) ∧
          (k = 3 → ∀ p : Port, p.val = start + j →
            Laid recs[j] [(0, 1, p.val), (1, 1, (s.prcAt p).state.code), (2, 1, if (s.oevAt p).baseline then 1 else 0),
              (3, 1, (s.oevAt p).level), (4, 1, (s.oevAt p).peak), (5, 1, 0), (6, 2, s.fanIn p),
              (8, 4, (s.oevAt p).accepted), (12, 4, (s.oevAt p).stale), (16, 4, (s.oevAt p).clamps), (20, 12, 0)])) ∧
        (0 :: (be 1 code ++ be 2 start ++ be 2 n ++ (if code = 2 then be 4 s.ern.written else [])
          ++ recs.flatten)).length ≤ 1024 ∧
        exec i s = .next { s with clc := s.clc.answered ⟨0xD0, tag, 0 :: (be 1 code ++ be 2 start ++ be 2 n
          ++ (if code = 2 then be 4 s.ern.written else []) ++ recs.flatten)⟩ })

/-- SET_DEVICE stores the fault limit, 0 as 1, and the age limit clamped into 100 to 1,000,000, and answers both;
CLEAR_HISTORY empties the ring and answers how many it held; SET_NOTICE_LEVELS replaces all fifteen levels, takes
entries of a class now at level 0 out of the pending set and gives the others their new level, or names the lowest
class above 15; READ_FAULT answers the fault snapshot and empties it (R8, R50, R172, R173, R175, R179, R190). -/
def Obligations.DeviceSettingsAndFault : Prop :=
  ∀ (s : State) (tag : Byte), s.laneSettled →
    (∀ (fl : Byte) (age : Nat), age < 4294967296 → Takes s ⟨0x05, tag, fl :: be 4 age⟩ →
      let f := if fl.toNat = 0 then 1 else fl.toNat
      let a := if age < 100 then 100 else if 1000000 < age then 1000000 else age
      exec (.setDevice tag (fl :: be 4 age)) s = .next { s with
        flc := { s.flc with faultLimit := f }, rtb := { s.rtb with ageLimit := a }
        clc := s.clc.answered ⟨0x85, tag, 0 :: (be 1 f ++ be 4 a)⟩ }) ∧
    (Takes s ⟨0x51, tag, []⟩ → exec (.clearHistory tag []) s = .next { s with
      ern := { s.ern with history := [] }
      clc := s.clc.answered ⟨0xD1, tag, [0, BitVec.ofNat 8 s.ern.history.length]⟩ }) ∧
    (∀ b : List Byte, b.length = 15 → Takes s ⟨0x52, tag, b⟩ →
      (∀ i : Fin 15, 15 < fieldAt b i.val 1 → (∀ j : Fin 15, j < i → fieldAt b j.val 1 ≤ 15) →
        exec (.setNoticeLevels tag b) s = .next
          { s with clc := s.clc.answered ⟨0xD2, tag, [5, BitVec.ofNat 8 i.val]⟩ }) ∧
      ((∀ i : Fin 15, fieldAt b i.val 1 ≤ 15) →
        ∃ v : Vector Nat 15, (∀ i : Fin 15, v[i] = fieldAt b i.val 1) ∧
          exec (.setNoticeLevels tag b) s = .next { s with
            ern := { s.ern with
              levels := v
              pendingSet := (s.ern.pendingSet.filter fun n => v[n.cls.code] != 0).map fun n =>
                { n with level := v[n.cls.code] } }
            clc := s.clc.answered ⟨0xD2, tag, 0 :: b⟩ })) ∧
    (Takes s ⟨0x53, tag, []⟩ → exec (.readFault tag []) s = .next { s with
      ern := { s.ern with fault := none }
      clc := s.clc.answered ⟨0xD3, tag, match s.ern.fault with
        | none => List.replicate 14 0
        | some f => [0, 1, BitVec.ofNat 8 f.kind.code] ++ be 2 f.seq.toNat ++ be 1 f.index ++ be 4 f.time.toNat
          ++ be 4 f.later⟩ })

/-! ### Notices, history and the fault snapshot -/

/-- An occurrence at level 0 is suppressed; one whose class and scope stand in the pending set replaces that
entry's value, time, episode and level and raises its repeat count up to 255; any other enters with repeat count
1. The ring of 32 drops its oldest summary for a new one. The first fault fills the empty snapshot, and a later
one only counts (R171, R174, R178). -/
def Obligations.NoticesHistoryAndFault : Prop :=
  (∀ (e : Ern) (c : NoticeClass) (sc : Option Port) (ep v : Nat) (time : BitVec 32), e.pendingOk →
    let e' := e.raise c sc ep v time
    (e.level c = 0 → e' = { e with suppressed := sat32 (e.suppressed + 1) }) ∧
    (∀ n, e.level c ≠ 0 → n ∈ e.pendingSet → n.cls = c → n.scope = sc →
      e' = { e with pendingSet := e'.pendingSet, coalesced := sat32 (e.coalesced + 1) } ∧
      ∀ m, m ∈ e'.pendingSet ↔ (m ∈ e.pendingSet ∧ ¬(m.cls = c ∧ m.scope = sc)) ∨
        m = ⟨c, sc, e.level c, min 255 (n.count + 1), ep, v, time⟩) ∧
    (e.level c ≠ 0 → (∀ n ∈ e.pendingSet, ¬(n.cls = c ∧ n.scope = sc)) →
      e' = { e with pendingSet := e'.pendingSet } ∧
      ∀ m, m ∈ e'.pendingSet ↔ m ∈ e.pendingSet ∨ m = ⟨c, sc, e.level c, 1, ep, v, time⟩)) ∧
  (∀ (e : Ern) (x : Summary), e.history.length ≤ 32 →
    e.append x = { e with
      history := if e.history.length = 32 then e.history.tail ++ [x] else e.history ++ [x]
      written := sat32 (e.written + 1)
      dropped := if e.history.length = 32 then sat32 (e.dropped + 1) else e.dropped }) ∧
  ∀ (e : Ern) (k : FaultKind) (seq : BitVec 16) (index : Nat) (time : BitVec 32),
    e.offer k seq index time = { e with fault := some (match e.fault with
      | none => ⟨k, seq, index, time, 0⟩
      | some f => { f with later := sat32 (f.later + 1) }) }
end

