-- ==== Sys2Proof/Laws/Bytes.lean ====
section
/-! SUPPORT. Numbers as bytes, most-significant byte first: writing and reading back, and a field of a run of
bytes put together from parts. -/

namespace Sys2Proof.Machine

@[simp] theorem be_length (n v : Nat) : (be n v).length = n := by
  induction n generalizing v with
  | zero => rfl
  | succ n ih => simp [be, ih]

theorem readBE_foldl (l : List Byte) (a : Nat) :
    l.foldl (fun a b => a * 256 + b.toNat) a = a * 256 ^ l.length + readBE l := by
  induction l generalizing a with
  | nil => simp [readBE]
  | cons b l ih =>
    simp only [readBE, List.foldl_cons, List.length_cons]
    rw [ih, ih (0 * 256 + b.toNat)]
    ring

theorem readBE_cons (b : Byte) (l : List Byte) : readBE (b :: l) = b.toNat * 256 ^ l.length + readBE l := by
  simp only [readBE, List.foldl_cons]
  rw [readBE_foldl]
  simp [readBE]

theorem readBE_append (l m : List Byte) : readBE (l ++ m) = readBE l * 256 ^ m.length + readBE m := by
  simp only [readBE, List.foldl_append]
  rw [readBE_foldl]
  rfl

theorem readBE_lt (l : List Byte) : readBE l < 256 ^ l.length := by
  induction l with
  | nil => simp [readBE]
  | cons b l ih =>
    rw [readBE_cons, List.length_cons, pow_succ]
    have := b.isLt
    nlinarith [Nat.pow_pos (n := l.length) (show 0 < 256 by decide)]

theorem readBE_be (n v : Nat) : readBE (be n v) = v % 256 ^ n := by
  induction n with
  | zero => simp [be, readBE, Nat.mod_one]
  | succ n ih =>
    rw [be, readBE_cons, be_length, ih, BitVec.toNat_ofNat, Nat.shiftRight_eq_div_pow]
    rw [show 2 ^ (8 * n) = 256 ^ n by rw [pow_mul]; rfl, show 2 ^ 8 = 256 by rfl]
    rw [pow_succ, Nat.mod_mul]
    ring

theorem be_readBE (l : List Byte) : be l.length (readBE l) = l := by
  induction l with
  | nil => rfl
  | cons b l ih =>
    have hlt := readBE_lt l
    have hp : 0 < 256 ^ l.length := Nat.pow_pos (by decide)
    have h1 : ∀ n v w, v % 256 ^ n = w % 256 ^ n → be n v = be n w := by
      intro n
      induction n with
      | zero => intros; rfl
      | succ n ih =>
        intro v w h
        simp only [be]
        have hb : v / 256 ^ n % 256 = w / 256 ^ n % 256 := by
          have := congrArg (· / 256 ^ n) h
          simp only [pow_succ] at this
          rwa [Nat.mod_mul_right_div_self, Nat.mod_mul_right_div_self] at this
        have hv : v % 256 ^ n = w % 256 ^ n := by
          have := congrArg (· % 256 ^ n) h
          simp only [pow_succ] at this
          rwa [Nat.mod_mul_right_mod, Nat.mod_mul_right_mod] at this
        rw [ih v w hv, Nat.shiftRight_eq_div_pow, Nat.shiftRight_eq_div_pow,
          show 2 ^ (8 * n) = 256 ^ n by rw [pow_mul]; rfl]
        congr 1
        apply BitVec.eq_of_toNat_eq
        simpa using hb
    rw [List.length_cons, be, readBE_cons, Nat.shiftRight_eq_div_pow,
      show 2 ^ (8 * l.length) = 256 ^ l.length by rw [pow_mul]; rfl]
    congr 1
    · rw [Nat.add_comm, Nat.add_mul_div_right _ _ hp, Nat.div_eq_of_lt hlt]
      simp
    · rw [h1 l.length _ (readBE l) (by simp [Nat.add_mod]), ih]

/-- Writing a number depends on its value in the bytes written. -/
theorem be_mod (n v : Nat) : be n (v % 256 ^ n) = be n v := by
  have h := be_readBE (be n v)
  rwa [be_length, readBE_be] at h

theorem be_one (v : Nat) : be 1 v = [BitVec.ofNat 8 v] := by simp [be]

theorem be_one_toNat (b : Byte) : be 1 b.toNat = [b] := by simp [be]

/-! ### Fields -/

theorem fieldAt_lt (l : List Byte) (off n : Nat) : fieldAt l off n < 256 ^ n := by
  unfold fieldAt
  refine lt_of_lt_of_le (readBE_lt _) (Nat.pow_le_pow_right (by decide) ?_)
  simp

theorem fieldAt_append_left (l m : List Byte) (off n : Nat) (h : off + n ≤ l.length) :
    fieldAt (l ++ m) off n = fieldAt l off n := by
  unfold fieldAt
  rw [List.drop_append_of_le_length (by omega), List.take_append_of_le_length (by simp; omega)]

theorem fieldAt_append_right (l m : List Byte) (off n : Nat) (h : l.length ≤ off) :
    fieldAt (l ++ m) off n = fieldAt m (off - l.length) n := by
  unfold fieldAt
  rw [List.drop_append, List.drop_eq_nil_of_le h, List.nil_append]

/-- A field just written. -/
theorem fieldAt_be (n v : Nat) : fieldAt (be n v) 0 n = v % 256 ^ n := by
  unfold fieldAt
  rw [List.drop_zero, List.take_of_length_le (by simp), readBE_be]

theorem fieldAt_be_append (n v : Nat) (m : List Byte) : fieldAt (be n v ++ m) 0 n = v % 256 ^ n := by
  rw [fieldAt_append_left _ _ _ _ (by simp), fieldAt_be]

theorem fieldAt_skip (k v : Nat) (m : List Byte) (off n : Nat) (h : k ≤ off) :
    fieldAt (be k v ++ m) off n = fieldAt m (off - k) n := by
  rw [fieldAt_append_right _ _ _ _ (by simpa using h), be_length]

theorem fieldAt_cons_zero (b : Byte) (l : List Byte) : fieldAt (b :: l) 0 1 = b.toNat := by
  simp [fieldAt, readBE]

theorem fieldAt_cons_succ (b : Byte) (l : List Byte) (off n : Nat) :
    fieldAt (b :: l) (off + 1) n = fieldAt l off n := rfl

/-- The bytes of a field, written back. -/
theorem be_fieldAt (l : List Byte) (off n : Nat) (h : off + n ≤ l.length) :
    be n (fieldAt l off n) = (l.drop off).take n := by
  unfold fieldAt
  have hl : ((l.drop off).take n).length = n := by simp; omega
  conv_lhs => rw [← hl]
  rw [hl]
  have := be_readBE ((l.drop off).take n)
  rwa [hl] at this

end Sys2Proof.Machine
end

