-- ==== Sys2Proof/Laws/State.lean ====
section
/-! SUPPORT. The small lemmas of State and its updates: what each named update leaves in every field it does not
change, and one element of a table after a change of one. -/

namespace Sys2Proof.Machine

/-! ### One element of a table -/

@[simp] theorem modAt_get_self {α : Type} {n : Nat} (v : Vector α n) (i : Fin n) (f : α → α) :
    (modAt v i f)[i] = f v[i] := by
  simp [modAt]

theorem modAt_get_ne {α : Type} {n : Nat} (v : Vector α n) (i j : Fin n) (f : α → α) (h : j ≠ i) :
    (modAt v i f)[j] = v[j] := by
  have : i.val ≠ j.val := fun e => h (Fin.ext e.symm)
  simp [modAt, this]

theorem modAt_get {α : Type} {n : Nat} (v : Vector α n) (i j : Fin n) (f : α → α) :
    (modAt v i f)[j] = if j = i then f v[i] else v[j] := by
  by_cases h : j = i
  · subst h; rw [if_pos rfl, modAt_get_self]
  · simp [h, modAt_get_ne _ _ _ _ h]

theorem modAt_id {α : Type} {n : Nat} (v : Vector α n) (i : Fin n) : modAt v i (fun x => x) = v := by
  simp [modAt]

theorem modAt_modAt {α : Type} {n : Nat} (v : Vector α n) (i : Fin n) (f g : α → α) :
    modAt (modAt v i f) i g = modAt v i fun x => g (f x) := by
  simp [modAt]

theorem modAt_congr {α : Type} {n : Nat} (v : Vector α n) (i : Fin n) (f g : α → α) (h : f v[i] = g v[i]) :
    modAt v i f = modAt v i g := by
  simp only [modAt, h]

/-! ### The fields that an update leaves alone -/

section
variable (s : State) (p : Port) (f : PrcPort → PrcPort)

@[simp] theorem State.modPrc_phase : (s.modPrc p f).phase = s.phase := rfl
@[simp] theorem State.modPrc_tmb : (s.modPrc p f).tmb = s.tmb := rfl
@[simp] theorem State.modPrc_flc : (s.modPrc p f).flc = s.flc := rfl
@[simp] theorem State.modPrc_oev : (s.modPrc p f).oev = s.oev := rfl
@[simp] theorem State.modPrc_rtb : (s.modPrc p f).rtb = s.rtb := rfl
@[simp] theorem State.modPrc_cmp : (s.modPrc p f).cmp = s.cmp := rfl
@[simp] theorem State.modPrc_pgs : (s.modPrc p f).pgs = s.pgs := rfl
@[simp] theorem State.modPrc_adu : (s.modPrc p f).adu = s.adu := rfl
@[simp] theorem State.modPrc_cru : (s.modPrc p f).cru = s.cru := rfl
@[simp] theorem State.modPrc_gpm : (s.modPrc p f).gpm = s.gpm := rfl
@[simp] theorem State.modPrc_ern : (s.modPrc p f).ern = s.ern := rfl
@[simp] theorem State.modPrc_clc : (s.modPrc p f).clc = s.clc := rfl
@[simp] theorem State.modPrc_free : (s.modPrc p f).free = s.free := rfl
@[simp] theorem State.modPrc_pending : (s.modPrc p f).pending = s.pending := rfl
@[simp] theorem State.modPrc_oevAt (r : Port) : (s.modPrc p f).oevAt r = s.oevAt r := rfl
@[simp] theorem State.modPrc_aduAt (r : Port) : (s.modPrc p f).aduAt r = s.aduAt r := rfl
@[simp] theorem State.modPrc_cruAt (r : Port) : (s.modPrc p f).cruAt r = s.cruAt r := rfl

end

section
variable (s : State) (p : Port) (f : Episode → Episode)

@[simp] theorem State.modEpisode_phase : (s.modEpisode p f).phase = s.phase := rfl
@[simp] theorem State.modEpisode_tmb : (s.modEpisode p f).tmb = s.tmb := rfl
@[simp] theorem State.modEpisode_flc : (s.modEpisode p f).flc = s.flc := rfl
@[simp] theorem State.modEpisode_oev : (s.modEpisode p f).oev = s.oev := rfl
@[simp] theorem State.modEpisode_rtb : (s.modEpisode p f).rtb = s.rtb := rfl
@[simp] theorem State.modEpisode_cmp : (s.modEpisode p f).cmp = s.cmp := rfl
@[simp] theorem State.modEpisode_pgs : (s.modEpisode p f).pgs = s.pgs := rfl
@[simp] theorem State.modEpisode_adu : (s.modEpisode p f).adu = s.adu := rfl
@[simp] theorem State.modEpisode_cru : (s.modEpisode p f).cru = s.cru := rfl
@[simp] theorem State.modEpisode_gpm : (s.modEpisode p f).gpm = s.gpm := rfl
@[simp] theorem State.modEpisode_ern : (s.modEpisode p f).ern = s.ern := rfl
@[simp] theorem State.modEpisode_clc : (s.modEpisode p f).clc = s.clc := rfl
@[simp] theorem State.modEpisode_free : (s.modEpisode p f).free = s.free := rfl
@[simp] theorem State.modEpisode_pending : (s.modEpisode p f).pending = s.pending := rfl
@[simp] theorem State.modEpisode_oevAt (r : Port) : (s.modEpisode p f).oevAt r = s.oevAt r := rfl
@[simp] theorem State.modEpisode_aduAt (r : Port) : (s.modEpisode p f).aduAt r = s.aduAt r := rfl
@[simp] theorem State.modEpisode_cruAt (r : Port) : (s.modEpisode p f).cruAt r = s.cruAt r := rfl

end

section
variable (s : State) (p : Port) (f : OevPort → OevPort)

@[simp] theorem State.modOev_phase : (s.modOev p f).phase = s.phase := rfl
@[simp] theorem State.modOev_tmb : (s.modOev p f).tmb = s.tmb := rfl
@[simp] theorem State.modOev_flc : (s.modOev p f).flc = s.flc := rfl
@[simp] theorem State.modOev_rtb : (s.modOev p f).rtb = s.rtb := rfl
@[simp] theorem State.modOev_cmp : (s.modOev p f).cmp = s.cmp := rfl
@[simp] theorem State.modOev_pgs : (s.modOev p f).pgs = s.pgs := rfl
@[simp] theorem State.modOev_prc : (s.modOev p f).prc = s.prc := rfl
@[simp] theorem State.modOev_adu : (s.modOev p f).adu = s.adu := rfl
@[simp] theorem State.modOev_cru : (s.modOev p f).cru = s.cru := rfl
@[simp] theorem State.modOev_gpm : (s.modOev p f).gpm = s.gpm := rfl
@[simp] theorem State.modOev_ern : (s.modOev p f).ern = s.ern := rfl
@[simp] theorem State.modOev_clc : (s.modOev p f).clc = s.clc := rfl
@[simp] theorem State.modOev_free : (s.modOev p f).free = s.free := rfl
@[simp] theorem State.modOev_pending : (s.modOev p f).pending = s.pending := rfl
@[simp] theorem State.modOev_prcAt (r : Port) : (s.modOev p f).prcAt r = s.prcAt r := rfl
@[simp] theorem State.modOev_aduAt (r : Port) : (s.modOev p f).aduAt r = s.aduAt r := rfl
@[simp] theorem State.modOev_cruAt (r : Port) : (s.modOev p f).cruAt r = s.cruAt r := rfl

end

section
variable (s : State) (p : Port) (f : AduPort → AduPort)

@[simp] theorem State.modAdu_phase : (s.modAdu p f).phase = s.phase := rfl
@[simp] theorem State.modAdu_tmb : (s.modAdu p f).tmb = s.tmb := rfl
@[simp] theorem State.modAdu_flc : (s.modAdu p f).flc = s.flc := rfl
@[simp] theorem State.modAdu_oev : (s.modAdu p f).oev = s.oev := rfl
@[simp] theorem State.modAdu_rtb : (s.modAdu p f).rtb = s.rtb := rfl
@[simp] theorem State.modAdu_cmp : (s.modAdu p f).cmp = s.cmp := rfl
@[simp] theorem State.modAdu_pgs : (s.modAdu p f).pgs = s.pgs := rfl
@[simp] theorem State.modAdu_prc : (s.modAdu p f).prc = s.prc := rfl
@[simp] theorem State.modAdu_cru : (s.modAdu p f).cru = s.cru := rfl
@[simp] theorem State.modAdu_gpm : (s.modAdu p f).gpm = s.gpm := rfl
@[simp] theorem State.modAdu_ern : (s.modAdu p f).ern = s.ern := rfl
@[simp] theorem State.modAdu_clc : (s.modAdu p f).clc = s.clc := rfl
@[simp] theorem State.modAdu_free : (s.modAdu p f).free = s.free := rfl
@[simp] theorem State.modAdu_pending : (s.modAdu p f).pending = s.pending := rfl
@[simp] theorem State.modAdu_prcAt (r : Port) : (s.modAdu p f).prcAt r = s.prcAt r := rfl
@[simp] theorem State.modAdu_oevAt (r : Port) : (s.modAdu p f).oevAt r = s.oevAt r := rfl
@[simp] theorem State.modAdu_cruAt (r : Port) : (s.modAdu p f).cruAt r = s.cruAt r := rfl

end

section
variable (s : State) (p : Port) (f : CruPort → CruPort)

@[simp] theorem State.modCru_phase : (s.modCru p f).phase = s.phase := rfl
@[simp] theorem State.modCru_tmb : (s.modCru p f).tmb = s.tmb := rfl
@[simp] theorem State.modCru_flc : (s.modCru p f).flc = s.flc := rfl
@[simp] theorem State.modCru_oev : (s.modCru p f).oev = s.oev := rfl
@[simp] theorem State.modCru_rtb : (s.modCru p f).rtb = s.rtb := rfl
@[simp] theorem State.modCru_cmp : (s.modCru p f).cmp = s.cmp := rfl
@[simp] theorem State.modCru_pgs : (s.modCru p f).pgs = s.pgs := rfl
@[simp] theorem State.modCru_prc : (s.modCru p f).prc = s.prc := rfl
@[simp] theorem State.modCru_adu : (s.modCru p f).adu = s.adu := rfl
@[simp] theorem State.modCru_gpm : (s.modCru p f).gpm = s.gpm := rfl
@[simp] theorem State.modCru_ern : (s.modCru p f).ern = s.ern := rfl
@[simp] theorem State.modCru_clc : (s.modCru p f).clc = s.clc := rfl
@[simp] theorem State.modCru_free : (s.modCru p f).free = s.free := rfl
@[simp] theorem State.modCru_pending : (s.modCru p f).pending = s.pending := rfl
@[simp] theorem State.modCru_prcAt (r : Port) : (s.modCru p f).prcAt r = s.prcAt r := rfl
@[simp] theorem State.modCru_oevAt (r : Port) : (s.modCru p f).oevAt r = s.oevAt r := rfl
@[simp] theorem State.modCru_aduAt (r : Port) : (s.modCru p f).aduAt r = s.aduAt r := rfl

end

section
variable (s : State) (i : Slot) (f : Entry → Entry)

@[simp] theorem State.modEntry_phase : (s.modEntry i f).phase = s.phase := rfl
@[simp] theorem State.modEntry_tmb : (s.modEntry i f).tmb = s.tmb := rfl
@[simp] theorem State.modEntry_flc : (s.modEntry i f).flc = s.flc := rfl
@[simp] theorem State.modEntry_oev : (s.modEntry i f).oev = s.oev := rfl
@[simp] theorem State.modEntry_cmp : (s.modEntry i f).cmp = s.cmp := rfl
@[simp] theorem State.modEntry_pgs : (s.modEntry i f).pgs = s.pgs := rfl
@[simp] theorem State.modEntry_prc : (s.modEntry i f).prc = s.prc := rfl
@[simp] theorem State.modEntry_adu : (s.modEntry i f).adu = s.adu := rfl
@[simp] theorem State.modEntry_cru : (s.modEntry i f).cru = s.cru := rfl
@[simp] theorem State.modEntry_gpm : (s.modEntry i f).gpm = s.gpm := rfl
@[simp] theorem State.modEntry_ern : (s.modEntry i f).ern = s.ern := rfl
@[simp] theorem State.modEntry_clc : (s.modEntry i f).clc = s.clc := rfl
@[simp] theorem State.modEntry_free : (s.modEntry i f).free = s.free := rfl
@[simp] theorem State.modEntry_pending : (s.modEntry i f).pending = s.pending := rfl
@[simp] theorem State.modEntry_prcAt (r : Port) : (s.modEntry i f).prcAt r = s.prcAt r := rfl
@[simp] theorem State.modEntry_oevAt (r : Port) : (s.modEntry i f).oevAt r = s.oevAt r := rfl
@[simp] theorem State.modEntry_aduAt (r : Port) : (s.modEntry i f).aduAt r = s.aduAt r := rfl
@[simp] theorem State.modEntry_cruAt (r : Port) : (s.modEntry i f).cruAt r = s.cruAt r := rfl

end

section
variable (s : State) (c : NoticeClass) (sc : Option Port) (ep v : Nat)

@[simp] theorem State.raise_phase : (s.raise c sc ep v).phase = s.phase := rfl
@[simp] theorem State.raise_tmb : (s.raise c sc ep v).tmb = s.tmb := rfl
@[simp] theorem State.raise_flc : (s.raise c sc ep v).flc = s.flc := rfl
@[simp] theorem State.raise_oev : (s.raise c sc ep v).oev = s.oev := rfl
@[simp] theorem State.raise_rtb : (s.raise c sc ep v).rtb = s.rtb := rfl
@[simp] theorem State.raise_cmp : (s.raise c sc ep v).cmp = s.cmp := rfl
@[simp] theorem State.raise_pgs : (s.raise c sc ep v).pgs = s.pgs := rfl
@[simp] theorem State.raise_prc : (s.raise c sc ep v).prc = s.prc := rfl
@[simp] theorem State.raise_adu : (s.raise c sc ep v).adu = s.adu := rfl
@[simp] theorem State.raise_cru : (s.raise c sc ep v).cru = s.cru := rfl
@[simp] theorem State.raise_gpm : (s.raise c sc ep v).gpm = s.gpm := rfl
@[simp] theorem State.raise_clc : (s.raise c sc ep v).clc = s.clc := rfl
@[simp] theorem State.raise_free : (s.raise c sc ep v).free = s.free := rfl
@[simp] theorem State.raise_pending : (s.raise c sc ep v).pending = s.pending := rfl
@[simp] theorem State.raise_prcAt (r : Port) : (s.raise c sc ep v).prcAt r = s.prcAt r := rfl
@[simp] theorem State.raise_oevAt (r : Port) : (s.raise c sc ep v).oevAt r = s.oevAt r := rfl
@[simp] theorem State.raise_aduAt (r : Port) : (s.raise c sc ep v).aduAt r = s.aduAt r := rfl
@[simp] theorem State.raise_cruAt (r : Port) : (s.raise c sc ep v).cruAt r = s.cruAt r := rfl

end

section
variable (s : State) (k : FaultKind) (sq : BitVec 16) (ix : Nat)

@[simp] theorem State.offer_phase : (s.offer k sq ix).phase = s.phase := rfl
@[simp] theorem State.offer_tmb : (s.offer k sq ix).tmb = s.tmb := rfl
@[simp] theorem State.offer_flc : (s.offer k sq ix).flc = s.flc := rfl
@[simp] theorem State.offer_oev : (s.offer k sq ix).oev = s.oev := rfl
@[simp] theorem State.offer_rtb : (s.offer k sq ix).rtb = s.rtb := rfl
@[simp] theorem State.offer_cmp : (s.offer k sq ix).cmp = s.cmp := rfl
@[simp] theorem State.offer_pgs : (s.offer k sq ix).pgs = s.pgs := rfl
@[simp] theorem State.offer_prc : (s.offer k sq ix).prc = s.prc := rfl
@[simp] theorem State.offer_adu : (s.offer k sq ix).adu = s.adu := rfl
@[simp] theorem State.offer_cru : (s.offer k sq ix).cru = s.cru := rfl
@[simp] theorem State.offer_gpm : (s.offer k sq ix).gpm = s.gpm := rfl
@[simp] theorem State.offer_clc : (s.offer k sq ix).clc = s.clc := rfl
@[simp] theorem State.offer_free : (s.offer k sq ix).free = s.free := rfl
@[simp] theorem State.offer_pending : (s.offer k sq ix).pending = s.pending := rfl
@[simp] theorem State.offer_prcAt (r : Port) : (s.offer k sq ix).prcAt r = s.prcAt r := rfl
@[simp] theorem State.offer_oevAt (r : Port) : (s.offer k sq ix).oevAt r = s.oevAt r := rfl
@[simp] theorem State.offer_aduAt (r : Port) : (s.offer k sq ix).aduAt r = s.aduAt r := rfl
@[simp] theorem State.offer_cruAt (r : Port) : (s.offer k sq ix).cruAt r = s.cruAt r := rfl

end

section
variable (s : State) (f : LinkCounters → LinkCounters)

@[simp] theorem State.modLink_phase : (s.modLink f).phase = s.phase := rfl
@[simp] theorem State.modLink_tmb : (s.modLink f).tmb = s.tmb := rfl
@[simp] theorem State.modLink_oev : (s.modLink f).oev = s.oev := rfl
@[simp] theorem State.modLink_rtb : (s.modLink f).rtb = s.rtb := rfl
@[simp] theorem State.modLink_cmp : (s.modLink f).cmp = s.cmp := rfl
@[simp] theorem State.modLink_pgs : (s.modLink f).pgs = s.pgs := rfl
@[simp] theorem State.modLink_prc : (s.modLink f).prc = s.prc := rfl
@[simp] theorem State.modLink_adu : (s.modLink f).adu = s.adu := rfl
@[simp] theorem State.modLink_cru : (s.modLink f).cru = s.cru := rfl
@[simp] theorem State.modLink_gpm : (s.modLink f).gpm = s.gpm := rfl
@[simp] theorem State.modLink_ern : (s.modLink f).ern = s.ern := rfl
@[simp] theorem State.modLink_clc : (s.modLink f).clc = s.clc := rfl
@[simp] theorem State.modLink_free : (s.modLink f).free = s.free := rfl
@[simp] theorem State.modLink_pending : (s.modLink f).pending = s.pending := rfl
@[simp] theorem State.modLink_prcAt (r : Port) : (s.modLink f).prcAt r = s.prcAt r := rfl
@[simp] theorem State.modLink_oevAt (r : Port) : (s.modLink f).oevAt r = s.oevAt r := rfl
@[simp] theorem State.modLink_aduAt (r : Port) : (s.modLink f).aduAt r = s.aduAt r := rfl
@[simp] theorem State.modLink_cruAt (r : Port) : (s.modLink f).cruAt r = s.cruAt r := rfl

end

section
variable (s : State) (f : RtbCounters → RtbCounters)

@[simp] theorem State.modRtbCtr_phase : (s.modRtbCtr f).phase = s.phase := rfl
@[simp] theorem State.modRtbCtr_tmb : (s.modRtbCtr f).tmb = s.tmb := rfl
@[simp] theorem State.modRtbCtr_flc : (s.modRtbCtr f).flc = s.flc := rfl
@[simp] theorem State.modRtbCtr_oev : (s.modRtbCtr f).oev = s.oev := rfl
@[simp] theorem State.modRtbCtr_cmp : (s.modRtbCtr f).cmp = s.cmp := rfl
@[simp] theorem State.modRtbCtr_pgs : (s.modRtbCtr f).pgs = s.pgs := rfl
@[simp] theorem State.modRtbCtr_prc : (s.modRtbCtr f).prc = s.prc := rfl
@[simp] theorem State.modRtbCtr_adu : (s.modRtbCtr f).adu = s.adu := rfl
@[simp] theorem State.modRtbCtr_cru : (s.modRtbCtr f).cru = s.cru := rfl
@[simp] theorem State.modRtbCtr_gpm : (s.modRtbCtr f).gpm = s.gpm := rfl
@[simp] theorem State.modRtbCtr_ern : (s.modRtbCtr f).ern = s.ern := rfl
@[simp] theorem State.modRtbCtr_clc : (s.modRtbCtr f).clc = s.clc := rfl
@[simp] theorem State.modRtbCtr_free : (s.modRtbCtr f).free = s.free := rfl
@[simp] theorem State.modRtbCtr_pending : (s.modRtbCtr f).pending = s.pending := rfl
@[simp] theorem State.modRtbCtr_prcAt (r : Port) : (s.modRtbCtr f).prcAt r = s.prcAt r := rfl
@[simp] theorem State.modRtbCtr_oevAt (r : Port) : (s.modRtbCtr f).oevAt r = s.oevAt r := rfl
@[simp] theorem State.modRtbCtr_aduAt (r : Port) : (s.modRtbCtr f).aduAt r = s.aduAt r := rfl
@[simp] theorem State.modRtbCtr_cruAt (r : Port) : (s.modRtbCtr f).cruAt r = s.cruAt r := rfl

end

section
variable (s : State) (f : ClcCounters → ClcCounters)

@[simp] theorem State.modClcCtr_phase : (s.modClcCtr f).phase = s.phase := rfl
@[simp] theorem State.modClcCtr_tmb : (s.modClcCtr f).tmb = s.tmb := rfl
@[simp] theorem State.modClcCtr_flc : (s.modClcCtr f).flc = s.flc := rfl
@[simp] theorem State.modClcCtr_oev : (s.modClcCtr f).oev = s.oev := rfl
@[simp] theorem State.modClcCtr_rtb : (s.modClcCtr f).rtb = s.rtb := rfl
@[simp] theorem State.modClcCtr_cmp : (s.modClcCtr f).cmp = s.cmp := rfl
@[simp] theorem State.modClcCtr_pgs : (s.modClcCtr f).pgs = s.pgs := rfl
@[simp] theorem State.modClcCtr_prc : (s.modClcCtr f).prc = s.prc := rfl
@[simp] theorem State.modClcCtr_adu : (s.modClcCtr f).adu = s.adu := rfl
@[simp] theorem State.modClcCtr_cru : (s.modClcCtr f).cru = s.cru := rfl
@[simp] theorem State.modClcCtr_gpm : (s.modClcCtr f).gpm = s.gpm := rfl
@[simp] theorem State.modClcCtr_ern : (s.modClcCtr f).ern = s.ern := rfl
@[simp] theorem State.modClcCtr_free : (s.modClcCtr f).free = s.free := rfl
@[simp] theorem State.modClcCtr_pending : (s.modClcCtr f).pending = s.pending := rfl
@[simp] theorem State.modClcCtr_prcAt (r : Port) : (s.modClcCtr f).prcAt r = s.prcAt r := rfl
@[simp] theorem State.modClcCtr_oevAt (r : Port) : (s.modClcCtr f).oevAt r = s.oevAt r := rfl
@[simp] theorem State.modClcCtr_aduAt (r : Port) : (s.modClcCtr f).aduAt r = s.aduAt r := rfl
@[simp] theorem State.modClcCtr_cruAt (r : Port) : (s.modClcCtr f).cruAt r = s.cruAt r := rfl

end

section
variable (s : State) (i : Slot)

@[simp] theorem State.removeEntry_phase : (s.removeEntry i).phase = s.phase := rfl
@[simp] theorem State.removeEntry_tmb : (s.removeEntry i).tmb = s.tmb := rfl
@[simp] theorem State.removeEntry_flc : (s.removeEntry i).flc = s.flc := rfl
@[simp] theorem State.removeEntry_oev : (s.removeEntry i).oev = s.oev := rfl
@[simp] theorem State.removeEntry_cmp : (s.removeEntry i).cmp = s.cmp := rfl
@[simp] theorem State.removeEntry_pgs : (s.removeEntry i).pgs = s.pgs := rfl
@[simp] theorem State.removeEntry_prc : (s.removeEntry i).prc = s.prc := rfl
@[simp] theorem State.removeEntry_adu : (s.removeEntry i).adu = s.adu := rfl
@[simp] theorem State.removeEntry_cru : (s.removeEntry i).cru = s.cru := rfl
@[simp] theorem State.removeEntry_gpm : (s.removeEntry i).gpm = s.gpm := rfl
@[simp] theorem State.removeEntry_ern : (s.removeEntry i).ern = s.ern := rfl
@[simp] theorem State.removeEntry_clc : (s.removeEntry i).clc = s.clc := rfl
@[simp] theorem State.removeEntry_free : (s.removeEntry i).free = s.free := rfl
@[simp] theorem State.removeEntry_pending : (s.removeEntry i).pending = s.pending := rfl
@[simp] theorem State.removeEntry_prcAt (r : Port) : (s.removeEntry i).prcAt r = s.prcAt r := rfl
@[simp] theorem State.removeEntry_oevAt (r : Port) : (s.removeEntry i).oevAt r = s.oevAt r := rfl
@[simp] theorem State.removeEntry_aduAt (r : Port) : (s.removeEntry i).aduAt r = s.aduAt r := rfl
@[simp] theorem State.removeEntry_cruAt (r : Port) : (s.removeEntry i).cruAt r = s.cruAt r := rfl

end

section
variable (s : State) (p : Port) (x : PortState)

@[simp] theorem State.enterPort_phase : (s.enterPort p x).phase = s.phase := rfl
@[simp] theorem State.enterPort_tmb : (s.enterPort p x).tmb = s.tmb := rfl
@[simp] theorem State.enterPort_flc : (s.enterPort p x).flc = s.flc := rfl
@[simp] theorem State.enterPort_oev : (s.enterPort p x).oev = s.oev := rfl
@[simp] theorem State.enterPort_rtb : (s.enterPort p x).rtb = s.rtb := rfl
@[simp] theorem State.enterPort_cmp : (s.enterPort p x).cmp = s.cmp := rfl
@[simp] theorem State.enterPort_pgs : (s.enterPort p x).pgs = s.pgs := rfl
@[simp] theorem State.enterPort_adu : (s.enterPort p x).adu = s.adu := rfl
@[simp] theorem State.enterPort_cru : (s.enterPort p x).cru = s.cru := rfl
@[simp] theorem State.enterPort_gpm : (s.enterPort p x).gpm = s.gpm := rfl
@[simp] theorem State.enterPort_ern : (s.enterPort p x).ern = s.ern := rfl
@[simp] theorem State.enterPort_clc : (s.enterPort p x).clc = s.clc := rfl
@[simp] theorem State.enterPort_free : (s.enterPort p x).free = s.free := rfl
@[simp] theorem State.enterPort_pending : (s.enterPort p x).pending = s.pending := rfl
@[simp] theorem State.enterPort_oevAt (r : Port) : (s.enterPort p x).oevAt r = s.oevAt r := rfl
@[simp] theorem State.enterPort_aduAt (r : Port) : (s.enterPort p x).aduAt r = s.aduAt r := rfl
@[simp] theorem State.enterPort_cruAt (r : Port) : (s.enterPort p x).cruAt r = s.cruAt r := rfl

end

section
variable (s : State) (l : LinkState)

@[simp] theorem State.setLink_phase : (s.setLink l).phase = s.phase := rfl
@[simp] theorem State.setLink_tmb : (s.setLink l).tmb = s.tmb := rfl
@[simp] theorem State.setLink_oev : (s.setLink l).oev = s.oev := rfl
@[simp] theorem State.setLink_rtb : (s.setLink l).rtb = s.rtb := rfl
@[simp] theorem State.setLink_cmp : (s.setLink l).cmp = s.cmp := rfl
@[simp] theorem State.setLink_pgs : (s.setLink l).pgs = s.pgs := rfl
@[simp] theorem State.setLink_prc : (s.setLink l).prc = s.prc := rfl
@[simp] theorem State.setLink_adu : (s.setLink l).adu = s.adu := rfl
@[simp] theorem State.setLink_cru : (s.setLink l).cru = s.cru := rfl
@[simp] theorem State.setLink_gpm : (s.setLink l).gpm = s.gpm := rfl
@[simp] theorem State.setLink_clc : (s.setLink l).clc = s.clc := rfl
@[simp] theorem State.setLink_free : (s.setLink l).free = s.free := rfl
@[simp] theorem State.setLink_pending : (s.setLink l).pending = s.pending := rfl
@[simp] theorem State.setLink_prcAt (r : Port) : (s.setLink l).prcAt r = s.prcAt r := rfl
@[simp] theorem State.setLink_oevAt (r : Port) : (s.setLink l).oevAt r = s.oevAt r := rfl
@[simp] theorem State.setLink_aduAt (r : Port) : (s.setLink l).aduAt r = s.aduAt r := rfl
@[simp] theorem State.setLink_cruAt (r : Port) : (s.setLink l).cruAt r = s.cruAt r := rfl

end

section
variable (s : State) (c : NoticeClass) (p : Port) (v : Nat)

@[simp] theorem State.raiseEpisode_phase : (s.raiseEpisode c p v).phase = s.phase := rfl
@[simp] theorem State.raiseEpisode_tmb : (s.raiseEpisode c p v).tmb = s.tmb := rfl
@[simp] theorem State.raiseEpisode_flc : (s.raiseEpisode c p v).flc = s.flc := rfl
@[simp] theorem State.raiseEpisode_oev : (s.raiseEpisode c p v).oev = s.oev := rfl
@[simp] theorem State.raiseEpisode_rtb : (s.raiseEpisode c p v).rtb = s.rtb := rfl
@[simp] theorem State.raiseEpisode_cmp : (s.raiseEpisode c p v).cmp = s.cmp := rfl
@[simp] theorem State.raiseEpisode_pgs : (s.raiseEpisode c p v).pgs = s.pgs := rfl
@[simp] theorem State.raiseEpisode_prc : (s.raiseEpisode c p v).prc = s.prc := rfl
@[simp] theorem State.raiseEpisode_adu : (s.raiseEpisode c p v).adu = s.adu := rfl
@[simp] theorem State.raiseEpisode_cru : (s.raiseEpisode c p v).cru = s.cru := rfl
@[simp] theorem State.raiseEpisode_gpm : (s.raiseEpisode c p v).gpm = s.gpm := rfl
@[simp] theorem State.raiseEpisode_clc : (s.raiseEpisode c p v).clc = s.clc := rfl
@[simp] theorem State.raiseEpisode_free : (s.raiseEpisode c p v).free = s.free := rfl
@[simp] theorem State.raiseEpisode_pending : (s.raiseEpisode c p v).pending = s.pending := rfl
@[simp] theorem State.raiseEpisode_prcAt (r : Port) : (s.raiseEpisode c p v).prcAt r = s.prcAt r := rfl
@[simp] theorem State.raiseEpisode_oevAt (r : Port) : (s.raiseEpisode c p v).oevAt r = s.oevAt r := rfl
@[simp] theorem State.raiseEpisode_aduAt (r : Port) : (s.raiseEpisode c p v).aduAt r = s.aduAt r := rfl
@[simp] theorem State.raiseEpisode_cruAt (r : Port) : (s.raiseEpisode c p v).cruAt r = s.cruAt r := rfl

end

section
variable (s : State) (c : NoticeClass) (v : Nat)

@[simp] theorem State.raiseDevice_phase : (s.raiseDevice c v).phase = s.phase := rfl
@[simp] theorem State.raiseDevice_tmb : (s.raiseDevice c v).tmb = s.tmb := rfl
@[simp] theorem State.raiseDevice_flc : (s.raiseDevice c v).flc = s.flc := rfl
@[simp] theorem State.raiseDevice_oev : (s.raiseDevice c v).oev = s.oev := rfl
@[simp] theorem State.raiseDevice_rtb : (s.raiseDevice c v).rtb = s.rtb := rfl
@[simp] theorem State.raiseDevice_cmp : (s.raiseDevice c v).cmp = s.cmp := rfl
@[simp] theorem State.raiseDevice_pgs : (s.raiseDevice c v).pgs = s.pgs := rfl
@[simp] theorem State.raiseDevice_prc : (s.raiseDevice c v).prc = s.prc := rfl
@[simp] theorem State.raiseDevice_adu : (s.raiseDevice c v).adu = s.adu := rfl
@[simp] theorem State.raiseDevice_cru : (s.raiseDevice c v).cru = s.cru := rfl
@[simp] theorem State.raiseDevice_gpm : (s.raiseDevice c v).gpm = s.gpm := rfl
@[simp] theorem State.raiseDevice_clc : (s.raiseDevice c v).clc = s.clc := rfl
@[simp] theorem State.raiseDevice_free : (s.raiseDevice c v).free = s.free := rfl
@[simp] theorem State.raiseDevice_pending : (s.raiseDevice c v).pending = s.pending := rfl
@[simp] theorem State.raiseDevice_prcAt (r : Port) : (s.raiseDevice c v).prcAt r = s.prcAt r := rfl
@[simp] theorem State.raiseDevice_oevAt (r : Port) : (s.raiseDevice c v).oevAt r = s.oevAt r := rfl
@[simp] theorem State.raiseDevice_aduAt (r : Port) : (s.raiseDevice c v).aduAt r = s.aduAt r := rfl
@[simp] theorem State.raiseDevice_cruAt (r : Port) : (s.raiseDevice c v).cruAt r = s.cruAt r := rfl

end

/-! ### One port after a change of one -/

section
variable (s : State) (p q : Port)

theorem State.prcAt_modPrc (f : PrcPort → PrcPort) :
    (s.modPrc p f).prcAt q = if q = p then f (s.prcAt p) else s.prcAt q := modAt_get ..

theorem State.oevAt_modOev (f : OevPort → OevPort) :
    (s.modOev p f).oevAt q = if q = p then f (s.oevAt p) else s.oevAt q := modAt_get ..

theorem State.aduAt_modAdu (f : AduPort → AduPort) :
    (s.modAdu p f).aduAt q = if q = p then f (s.aduAt p) else s.aduAt q := modAt_get ..

theorem State.cruAt_modCru (f : CruPort → CruPort) :
    (s.modCru p f).cruAt q = if q = p then f (s.cruAt p) else s.cruAt q := modAt_get ..

@[simp] theorem State.prcAt_modPrc_self (f : PrcPort → PrcPort) : (s.modPrc p f).prcAt p = f (s.prcAt p) :=
  modAt_get_self ..

@[simp] theorem State.oevAt_modOev_self (f : OevPort → OevPort) : (s.modOev p f).oevAt p = f (s.oevAt p) :=
  modAt_get_self ..

@[simp] theorem State.aduAt_modAdu_self (f : AduPort → AduPort) : (s.modAdu p f).aduAt p = f (s.aduAt p) :=
  modAt_get_self ..

@[simp] theorem State.cruAt_modCru_self (f : CruPort → CruPort) : (s.modCru p f).cruAt p = f (s.cruAt p) :=
  modAt_get_self ..

end

/-! ### Two changes of one port -/

section
variable (s : State) (p : Port)

theorem State.modPrc_modPrc (f g : PrcPort → PrcPort) :
    (s.modPrc p f).modPrc p g = s.modPrc p fun x => g (f x) := by
  simp [State.modPrc, modAt_modAt]

theorem State.modPrc_congr (f g : PrcPort → PrcPort) (h : f (s.prcAt p) = g (s.prcAt p)) :
    s.modPrc p f = s.modPrc p g := by
  simp only [State.modPrc, modAt_congr _ _ f g h]

theorem State.modPrc_same (f : PrcPort → PrcPort) (h : f (s.prcAt p) = s.prcAt p) : s.modPrc p f = s := by
  have : s.modPrc p f = s.modPrc p fun x => x := State.modPrc_congr s p f _ h
  rw [this]; simp [State.modPrc, modAt_id]

theorem State.modOev_congr (f g : OevPort → OevPort) (h : f (s.oevAt p) = g (s.oevAt p)) :
    s.modOev p f = s.modOev p g := by
  simp only [State.modOev, modAt_congr _ _ f g h]

theorem State.modCru_modCru (f g : CruPort → CruPort) :
    (s.modCru p f).modCru p g = s.modCru p fun x => g (f x) := by
  simp [State.modCru, modAt_modAt]

end

end Sys2Proof.Machine
end

