-- ==== Sys2Proof/Laws/Frame.lean ====
section
/-! SUPPORT. What the operations of the relief cycle can do at most: `Quiet s t` says that between `s` and `t` only
port states, collections, credit, gates, the changing fields of entries, OEV levels and the ERN may differ, and
that the ranges and lists of the blocks are kept. Every shared operation is quiet. -/

namespace Sys2Proof.Machine

/-! ### Entries -/

/-- The fields of an entry that no operation changes after its creation, but for a refresh. -/
def Entry.fixed (e : Entry) :
    BitVec 32 × Port × BitVec 6 × BitVec 16 × Fin 9 × Bool × Fin 4 × Nat × Nat × Nat :=
  (e.hash, e.port, e.ingress, e.service, e.cls, e.eligible, e.band, e.cap, e.firstSeen, e.lastActivity)

/-- The slots of a table with the unchanging fields of their entries. -/
def Rtb.fixed (r : Rtb) := r.table.map fun x => (x.1, x.2.fixed)

theorem Rtb.fixed_modEntry (r : Rtb) (i : Slot) (f : Entry → Entry) (hf : ∀ e, (f e).fixed = e.fixed) :
    (r.modEntry i f).fixed = r.fixed := by
  unfold Rtb.fixed Rtb.modEntry
  simp only [List.map_map]
  apply List.map_congr_left
  intro x _
  simp only [Function.comp]
  split <;> simp [hf]

theorem Rtb.entry?_modEntry (r : Rtb) (i j : Slot) (f : Entry → Entry) :
    (r.modEntry i f).entry? j = if j = i then (r.entry? j).map f else r.entry? j := by
  unfold Rtb.entry? Rtb.modEntry
  simp only
  induction r.table with
  | nil => simp
  | cons x l ih =>
    simp only [List.map_cons, List.find?_cons]
    by_cases hx : x.1 = i
    · rw [if_pos hx]
      by_cases hj : x.1 = j
      · subst hj; simp [hx]
      · simp only [beq_eq_false_iff_ne.mpr hj]
        exact ih
    · rw [if_neg hx]
      by_cases hj : x.1 = j
      · subst hj; simp [hx]
      · simp only [beq_eq_false_iff_ne.mpr hj]
        exact ih

theorem Rtb.entry?_modEntry_self (r : Rtb) (i : Slot) (f : Entry → Entry) :
    (r.modEntry i f).entry? i = (r.entry? i).map f := by rw [Rtb.entry?_modEntry, if_pos rfl]

theorem Rtb.entry?_modEntry_ne (r : Rtb) {i j : Slot} (f : Entry → Entry) (h : j ≠ i) :
    (r.modEntry i f).entry? j = r.entry? j := by rw [Rtb.entry?_modEntry, if_neg h]

/-- The unchanging fields of the entry in a slot. -/
theorem Rtb.entry?_fixed {r u : Rtb} (h : u.fixed = r.fixed) (i : Slot) :
    (u.entry? i).map Entry.fixed = (r.entry? i).map Entry.fixed := by
  have key : ∀ l : List (Slot × Entry), ((l.find? fun x => x.1 == i).map (·.2)).map Entry.fixed =
      ((l.map fun x => (x.1, x.2.fixed)).find? fun x => x.1 == i).map (·.2) := by
    intro l
    induction l with
    | nil => rfl
    | cons x l ih =>
      simp only [List.map_cons, List.find?_cons]
      cases x.1 == i
      · exact ih
      · rfl
  unfold Rtb.entry?
  rw [key, key]
  exact congrArg (fun l : List _ => (l.find? fun x => x.1 == i).map (·.2)) h

/-- Keys and arrival lists in order depend on the unchanging fields only. -/
theorem Rtb.ok_of_fixed {r u : Rtb} (h : u.fixed = r.fixed) (ha : u.arrival = r.arrival) (hr : r.ok) : u.ok := by
  obtain ⟨h1, h2⟩ := hr
  refine ⟨?_, ?_⟩
  · have key : ∀ l : List (Slot × Entry),
        l.Pairwise (fun x y => x.1 < y.1 ∧ ¬(x.2.hash = y.2.hash ∧ x.2.port = y.2.port)) ↔
        (l.map fun x => (x.1, x.2.fixed)).Pairwise (fun x y => x.1 < y.1 ∧ ¬(x.2.1 = y.2.1 ∧ x.2.2.1 = y.2.2.1)) := by
      intro l; rw [List.pairwise_map]; rfl
    rw [key] at h1 ⊢
    exact (congrArg (List.Pairwise _) h).mpr h1
  · intro p
    rw [ha]
    refine ⟨(h2 p).1, fun i => ?_⟩
    rw [(h2 p).2 i]
    have hi := Rtb.entry?_fixed h i
    constructor
    · rintro ⟨e, he, hp⟩
      rw [he, Option.map_some, Option.map_eq_some_iff] at hi
      obtain ⟨e', he', hf⟩ := hi
      exact ⟨e', he', by rw [← hp]; exact congrArg (·.2.1) hf⟩
    · rintro ⟨e, he, hp⟩
      rw [he, Option.map_some, eq_comm, Option.map_eq_some_iff] at hi
      obtain ⟨e', he', hf⟩ := hi
      exact ⟨e', he', by rw [← hp]; exact congrArg (·.2.1) hf⟩

/-! ### The relation -/

/-- The notice classes of device scope (Table 11-2). -/
def NoticeClass.deviceScope (c : NoticeClass) : Prop :=
  c ∈ [NoticeClass.tableFull, .linkState, .linkFault, .recordError, .lineError]

/-- What an operation of the relief cycle leaves alone, and the ranges and lists it keeps. -/
structure Quiet (s t : State) : Prop where
  phase : t.phase = s.phase
  tmb : t.tmb = s.tmb
  flc : t.flc = s.flc
  cmp : t.cmp = s.cmp
  pgs : t.pgs = s.pgs
  clc : t.clc = s.clc
  free : t.free = s.free
  pending : t.pending = s.pending
  sets : t.oev.sets = s.oev.sets
  config : ∀ p, (t.prcAt p).config = (s.prcAt p).config
  fixed : t.rtb.fixed = s.rtb.fixed
  arrival : t.rtb.arrival = s.rtb.arrival
  ageLimit : t.rtb.ageLimit = s.rtb.ageLimit
  rtbCtr : t.rtb.ctr = s.rtb.ctr
  levels : t.ern.levels = s.ern.levels
  sent : t.ern.sent = s.ern.sent
  fault : t.ern.fault = s.ern.fault
  oevOk : (∀ p, (s.oevAt p).level ≤ (s.oevAt p).peak ∧ (s.oevAt p).peak ≤ 15) →
    ∀ p, (t.oevAt p).level ≤ (t.oevAt p).peak ∧ (t.oevAt p).peak ≤ 15
  cruOk : (∀ p, (s.cruAt p).a ≤ 16777215 ∧ (s.cruAt p).s ≤ 4294967295) →
    ∀ p, (t.cruAt p).a ≤ 16777215 ∧ (t.cruAt p).s ≤ 4294967295
  historyOk : s.ern.history.length ≤ 32 → t.ern.history.length ≤ 32
  pendingOk : s.ern.pendingOk → t.ern.pendingOk
  listsOk : s.gpm.listsOk → t.gpm.listsOk

theorem Quiet.refl (s : State) : Quiet s s :=
  ⟨rfl, rfl, rfl, rfl, rfl, rfl, rfl, rfl, rfl, fun _ => rfl, rfl, rfl, rfl, rfl, rfl, rfl, rfl, id, id, id, id, id⟩

theorem Quiet.trans {s t u : State} (h : Quiet s t) (k : Quiet t u) : Quiet s u :=
  ⟨k.phase.trans h.phase, k.tmb.trans h.tmb, k.flc.trans h.flc, k.cmp.trans h.cmp, k.pgs.trans h.pgs,
    k.clc.trans h.clc, k.free.trans h.free, k.pending.trans h.pending, k.sets.trans h.sets,
    fun p => (k.config p).trans (h.config p), k.fixed.trans h.fixed, k.arrival.trans h.arrival,
    k.ageLimit.trans h.ageLimit, k.rtbCtr.trans h.rtbCtr, k.levels.trans h.levels, k.sent.trans h.sent,
    k.fault.trans h.fault, fun x => k.oevOk (h.oevOk x), fun x => k.cruOk (h.cruOk x),
    fun x => k.historyOk (h.historyOk x), fun x => k.pendingOk (h.pendingOk x), fun x => k.listsOk (h.listsOk x)⟩

theorem Quiet.rtbOk {s t : State} (h : Quiet s t) (hr : s.rtb.ok) : t.rtb.ok :=
  Rtb.ok_of_fixed h.fixed h.arrival hr

theorem Quiet.fold {α : Type} {f : State → α → State} (hf : ∀ s a, Quiet s (f s a)) (l : List α) (s : State) :
    Quiet s (l.foldl f s) := by
  induction l generalizing s with
  | nil => exact Quiet.refl s
  | cons a l ih => exact (hf s a).trans (ih (f s a))

/-! ### The updates -/

section
variable (s : State)

theorem quiet_modPrc (p : Port) (f : PrcPort → PrcPort) (h : ∀ q, (f q).config = q.config) :
    Quiet s (s.modPrc p f) where
  phase := rfl
  tmb := rfl
  flc := rfl
  cmp := rfl
  pgs := rfl
  clc := rfl
  free := rfl
  pending := rfl
  sets := rfl
  config q := by rw [State.prcAt_modPrc]; split <;> simp_all
  fixed := rfl
  arrival := rfl
  ageLimit := rfl
  rtbCtr := rfl
  levels := rfl
  sent := rfl
  fault := rfl
  oevOk := id
  cruOk := id
  historyOk := id
  pendingOk := id
  listsOk := id

theorem quiet_modEpisode (p : Port) (f : Episode → Episode) : Quiet s (s.modEpisode p f) :=
  quiet_modPrc s p _ fun _ => rfl

theorem quiet_enterPort (p : Port) (x : PortState) : Quiet s (s.enterPort p x) := quiet_modPrc s p _ fun _ => rfl

theorem quiet_clearStandby (p : Port) : Quiet s (clearStandby p s) := quiet_modPrc s p _ fun _ => rfl

theorem quiet_restartStale (p : Port) : Quiet s (restartStale p s) := quiet_modPrc s p _ fun _ => rfl

theorem quiet_prc (n : Nat) : Quiet s { s with prc := { s.prc with episodeCounter := n } } :=
  ⟨rfl, rfl, rfl, rfl, rfl, rfl, rfl, rfl, rfl, fun _ => rfl, rfl, rfl, rfl, rfl, rfl, rfl, rfl, id, id, id, id, id⟩

theorem quiet_adu (a : Adu) : Quiet s { s with adu := a } :=
  ⟨rfl, rfl, rfl, rfl, rfl, rfl, rfl, rfl, rfl, fun _ => rfl, rfl, rfl, rfl, rfl, rfl, rfl, rfl, id, id, id, id, id⟩

theorem quiet_modAdu (p : Port) (f : AduPort → AduPort) : Quiet s (s.modAdu p f) := quiet_adu s _

theorem quiet_overflow (n : Nat) : Quiet s { s with cru := { s.cru with overflow := n } } :=
  ⟨rfl, rfl, rfl, rfl, rfl, rfl, rfl, rfl, rfl, fun _ => rfl, rfl, rfl, rfl, rfl, rfl, rfl, rfl, id, id, id, id, id⟩

theorem quiet_modCru (p : Port) (f : CruPort → CruPort)
    (h : ∀ c : CruPort, c.a ≤ 16777215 ∧ c.s ≤ 4294967295 → (f c).a ≤ 16777215 ∧ (f c).s ≤ 4294967295) :
    Quiet s (s.modCru p f) where
  phase := rfl
  tmb := rfl
  flc := rfl
  cmp := rfl
  pgs := rfl
  clc := rfl
  free := rfl
  pending := rfl
  sets := rfl
  config _ := rfl
  fixed := rfl
  arrival := rfl
  ageLimit := rfl
  rtbCtr := rfl
  levels := rfl
  sent := rfl
  fault := rfl
  oevOk := id
  cruOk hs q := by
    rw [State.cruAt_modCru]
    split
    · exact h _ (hs p)
    · exact hs q
  historyOk := id
  pendingOk := id
  listsOk := id

theorem quiet_modOev (p : Port) (f : OevPort → OevPort)
    (h : ∀ o : OevPort, o.level ≤ o.peak ∧ o.peak ≤ 15 → (f o).level ≤ (f o).peak ∧ (f o).peak ≤ 15) :
    Quiet s (s.modOev p f) where
  phase := rfl
  tmb := rfl
  flc := rfl
  cmp := rfl
  pgs := rfl
  clc := rfl
  free := rfl
  pending := rfl
  sets := rfl
  config _ := rfl
  fixed := rfl
  arrival := rfl
  ageLimit := rfl
  rtbCtr := rfl
  levels := rfl
  sent := rfl
  fault := rfl
  oevOk hs q := by
    rw [State.oevAt_modOev]
    split
    · exact h _ (hs p)
    · exact hs q
  cruOk := id
  historyOk := id
  pendingOk := id
  listsOk := id

theorem quiet_modEntry (i : Slot) (f : Entry → Entry) (h : ∀ e, (f e).fixed = e.fixed) : Quiet s (s.modEntry i f) :=
  ⟨rfl, rfl, rfl, rfl, rfl, rfl, rfl, rfl, rfl, fun _ => rfl, Rtb.fixed_modEntry _ _ _ h, rfl, rfl, rfl, rfl, rfl,
    rfl, id, id, id, id, id⟩

theorem quiet_gpm (m : Gpm) (h : s.gpm.listsOk → m.listsOk) : Quiet s { s with gpm := m } :=
  ⟨rfl, rfl, rfl, rfl, rfl, rfl, rfl, rfl, rfl, fun _ => rfl, rfl, rfl, rfl, rfl, rfl, rfl, rfl, id, id, id, id, h⟩

end

/-! ### The pending set and the history ring -/

theorem Notice.key_inj {a b : Notice} : a.key = b.key ↔ a.cls = b.cls ∧ a.scope = b.scope := by
  constructor
  · intro h
    obtain ⟨ca, sa, _, _, _, _, _⟩ := a
    obtain ⟨cb, sb, _, _, _, _, _⟩ := b
    have hcode : ca.code.val = cb.code.val → ca = cb := by cases ca <;> cases cb <;> decide
    cases sa with
    | none =>
      cases sb with
      | none =>
        simp only [Notice.key] at h
        exact ⟨hcode (by omega), rfl⟩
      | some q =>
        simp only [Notice.key] at h
        have := q.isLt
        omega
    | some p =>
      cases sb with
      | none =>
        simp only [Notice.key] at h
        have := p.isLt
        omega
      | some q =>
        simp only [Notice.key] at h
        have := q.isLt
        have := p.isLt
        have hpq : p = q := Fin.ext (by omega)
        exact ⟨hcode (by omega), by rw [hpq]⟩
  · rintro ⟨h1, h2⟩
    unfold Notice.key; rw [h1, h2]

theorem mem_insertNotice {n m : Notice} {l : List Notice} : m ∈ insertNotice n l ↔ m = n ∨ m ∈ l := by
  induction l with
  | nil => simp [insertNotice]
  | cons a l ih =>
    unfold insertNotice
    split
    · simp
    · simp only [List.mem_cons, ih]; tauto

theorem insertNotice_sorted {n : Notice} {l : List Notice} (h : l.Pairwise fun a b => a.key < b.key)
    (hn : ∀ m ∈ l, m.key ≠ n.key) : (insertNotice n l).Pairwise fun a b => a.key < b.key := by
  induction l with
  | nil => simp [insertNotice]
  | cons a l ih =>
    unfold insertNotice
    rw [List.pairwise_cons] at h
    split
    · next hlt =>
      rw [List.pairwise_cons, List.pairwise_cons]
      refine ⟨?_, h⟩
      intro b hb
      rcases List.mem_cons.mp hb with rfl | hb
      · exact hlt
      · exact hlt.trans (h.1 b hb)
    · next hge =>
      rw [List.pairwise_cons]
      refine ⟨?_, ih h.2 fun m hm => hn m (List.mem_cons_of_mem _ hm)⟩
      intro b hb
      rcases mem_insertNotice.mp hb with rfl | hb
      · have := hn a (List.mem_cons_self ..)
        omega
      · exact h.1 b hb

/-- An occurrence keeps the pending set in order, given the scope of its class (R174). -/
theorem Ern.raise_pendingOk {e : Ern} (c : NoticeClass) (sc : Option Port) (ep v : Nat) (time : BitVec 32)
    (hsc : sc = none ↔ c.deviceScope) (h : e.pendingOk) : (e.raise c sc ep v time).pendingOk := by
  obtain ⟨h1, h2⟩ := h
  unfold Ern.raise
  split
  · exact ⟨h1, h2⟩
  · next hl =>
    split
    · refine ⟨?_, ?_⟩
      · rw [List.pairwise_map]
        refine h1.imp ?_
        intro a b hab
        have hk : ∀ m : Notice, (if m.cls = c ∧ m.scope = sc then
            (⟨c, sc, e.level c, min 255 (m.count + 1), ep, v, time⟩ : Notice) else m).key = m.key := by
          intro m
          split
          · next hm => rw [Notice.key_inj]; exact ⟨hm.1.symm, hm.2.symm⟩
          · rfl
        rw [hk, hk]; exact hab
      · intro n hn
        obtain ⟨m, hm, rfl⟩ := List.mem_map.mp hn
        obtain ⟨g1, g2, g3, g4, g5⟩ := h2 m hm
        split
        · exact ⟨rfl, hl, by simp, by simp, hsc⟩
        · exact ⟨g1, g2, g3, g4, g5⟩
    · next hany =>
      have hno : ∀ m ∈ e.pendingSet, m.key ≠ Notice.key ⟨c, sc, e.level c, 1, ep, v, time⟩ := by
        intro m hm hk
        rw [Notice.key_inj] at hk
        apply hany
        rw [List.any_eq_true]
        exact ⟨m, hm, by simp [hk.1, hk.2]⟩
      refine ⟨insertNotice_sorted h1 hno, ?_⟩
      intro n hn
      rcases mem_insertNotice.mp hn with rfl | hn
      · exact ⟨rfl, hl, by simp, by simp, hsc⟩
      · exact h2 n hn

theorem Ern.raise_keeps (e : Ern) (c : NoticeClass) (sc : Option Port) (ep v : Nat) (time : BitVec 32) :
    (e.raise c sc ep v time).levels = e.levels ∧ (e.raise c sc ep v time).history = e.history ∧
    (e.raise c sc ep v time).written = e.written ∧ (e.raise c sc ep v time).dropped = e.dropped ∧
    (e.raise c sc ep v time).sent = e.sent ∧ (e.raise c sc ep v time).fault = e.fault := by
  unfold Ern.raise
  split
  · exact ⟨rfl, rfl, rfl, rfl, rfl, rfl⟩
  · split <;> exact ⟨rfl, rfl, rfl, rfl, rfl, rfl⟩

theorem quiet_ern (s : State) (e : Ern) (h1 : e.levels = s.ern.levels) (h2 : e.sent = s.ern.sent)
    (h3 : e.fault = s.ern.fault) (h4 : s.ern.history.length ≤ 32 → e.history.length ≤ 32)
    (h5 : s.ern.pendingOk → e.pendingOk) : Quiet s { s with ern := e } :=
  ⟨rfl, rfl, rfl, rfl, rfl, rfl, rfl, rfl, rfl, fun _ => rfl, rfl, rfl, rfl, rfl, h1, h2, h3, id, id, h4, h5, id⟩

theorem quiet_raise (s : State) (c : NoticeClass) (sc : Option Port) (ep v : Nat)
    (hsc : sc = none ↔ c.deviceScope) : Quiet s (s.raise c sc ep v) := by
  obtain ⟨h1, h2, _, _, h5, h6⟩ := Ern.raise_keeps s.ern c sc ep v s.stamp
  exact quiet_ern s _ h1 h5 h6 (fun h => by rw [h2]; exact h) (Ern.raise_pendingOk c sc ep v _ hsc)

theorem quiet_raiseEpisode (s : State) (c : NoticeClass) (p : Port) (v : Nat) (hc : ¬c.deviceScope) :
    Quiet s (s.raiseEpisode c p v) := quiet_raise s c _ _ v (by simp [hc])

theorem Ern.append_keeps (e : Ern) (x : Summary) :
    (e.append x).levels = e.levels ∧ (e.append x).pendingSet = e.pendingSet ∧ (e.append x).sent = e.sent ∧
    (e.append x).fault = e.fault ∧ (e.append x).written = sat32 (e.written + 1) ∧
    (e.append x).coalesced = e.coalesced ∧ (e.append x).suppressed = e.suppressed ∧
    (e.append x).history.getLast? = some x := by
  unfold Ern.append
  split <;> exact ⟨rfl, rfl, rfl, rfl, rfl, rfl, rfl, by simp⟩

theorem Ern.append_length (e : Ern) (x : Summary) (h : e.history.length ≤ 32) : (e.append x).history.length ≤ 32 := by
  unfold Ern.append
  split
  · simp; omega
  · simp; omega

theorem quiet_append (s : State) (x : Summary) : Quiet s { s with ern := s.ern.append x } := by
  obtain ⟨h1, h2, h3, h4, _⟩ := Ern.append_keeps s.ern x
  refine quiet_ern s _ h1 h3 h4 (Ern.append_length _ _) ?_
  intro h
  unfold Ern.pendingOk Ern.level at *
  rw [h1, h2]; exact h

/-! ### Gates -/

theorem Gpm.gate_modGate (m : Gpm) (g h : GateNo) (f : Gate → Gate) :
    (m.modGate g f).gate h = if h = g then f (m.gate g) else m.gate h := modAt_get ..

@[simp] theorem Gpm.gate_enter (m : Gpm) (g h : GateNo) : (Gpm.enter g m).gate h = m.gate h := by
  unfold Gpm.enter; split <;> rfl

theorem Gpm.enter_keeps (m : Gpm) (g : GateNo) : (Gpm.enter g m).gates = m.gates ∧ (Gpm.enter g m).free = m.free ∧
    (Gpm.enter g m).binds = m.binds ∧ (Gpm.enter g m).frees = m.frees ∧
    (Gpm.enter g m).fifo = if g ∈ m.fifo then m.fifo else m.fifo ++ [g] := by
  unfold Gpm.enter
  split <;> exact ⟨rfl, rfl, rfl, rfl, rfl⟩

theorem Gpm.enter_listsOk {m : Gpm} (g : GateNo) (h : m.listsOk) : (Gpm.enter g m).listsOk := by
  obtain ⟨h1, h2, h3⟩ := h
  obtain ⟨k1, k2, _, _, k5⟩ := Gpm.enter_keeps m g
  refine ⟨?_, by rw [k2]; exact h2, fun x => by rw [k2, Gpm.gate_enter]; exact h3 x⟩
  rw [k5]
  split
  · exact h1
  · next hg => exact List.nodup_append.mpr ⟨h1, by simp, by rintro a ha b hb rfl; rw [List.mem_singleton] at hb; exact hg (hb ▸ ha)⟩

theorem Gpm.modGate_listsOk {m : Gpm} (g : GateNo) (f : Gate → Gate) (hf : ∀ x, (f x).bound = x.bound)
    (h : m.listsOk) : (m.modGate g f).listsOk := by
  obtain ⟨h1, h2, h3⟩ := h
  refine ⟨h1, h2, fun x => ?_⟩
  rw [Gpm.gate_modGate]
  have := h3 x
  split
  · next e => subst e; rw [hf]; exact this
  · exact this

theorem Gpm.want_listsOk {m : Gpm} (g : GateNo) (mode : GateMode) (d : Nat) (r : Resolution) (h : m.listsOk) :
    (Gpm.want g mode d r m).listsOk := by
  unfold Gpm.want
  have := Gpm.modGate_listsOk g (fun x => { x with mode := mode, divisor := d, res := r }) (fun _ => rfl) h
  dsimp only
  split
  · exact this
  · exact Gpm.enter_listsOk g this

theorem Gpm.release_listsOk {m : Gpm} (g : GateNo) (h : m.listsOk) : (Gpm.release g m).listsOk :=
  Gpm.modGate_listsOk g _ (fun _ => rfl) (Gpm.want_listsOk g _ _ _ h)

theorem Gpm.addAllowance_listsOk {m : Gpm} (g : GateNo) (n : Nat) (h : m.listsOk) :
    (Gpm.addAllowance g n m).listsOk := by
  unfold Gpm.addAllowance
  have := Gpm.modGate_listsOk g (fun x => { x with pendingAdd := min 16777215 (x.pendingAdd + n) }) (fun _ => rfl) h
  dsimp only
  split
  · exact this
  · exact Gpm.enter_listsOk g this

theorem Gpm.freeGate_listsOk {m : Gpm} (g : GateNo) (h : m.listsOk) : (Gpm.freeGate g m).listsOk := by
  unfold Gpm.freeGate
  split
  · exact h
  · next hb =>
    apply Gpm.enter_listsOk
    obtain ⟨h1, h2, h3⟩ := h
    have hg : g ∉ m.free := fun hm => hb (by rw [(h3 g).mp hm]; rfl)
    refine ⟨h1, List.nodup_append.mpr ⟨h2, by simp, by rintro a ha b hb rfl; rw [List.mem_singleton] at hb; exact hg (hb ▸ ha)⟩, fun x => ?_⟩
    have e : ∀ u : Gpm, u.gates = (m.modGate g Gate.freed).gates → u.gate x = (m.modGate g Gate.freed).gate x := by
      intro u hu; unfold Gpm.gate; rw [hu]
    refine Iff.trans ?_ (by rw [e { m.modGate g Gate.freed with free := m.free ++ [g], frees := sat32 (m.frees + 1) } rfl])
    rw [Gpm.gate_modGate]
    simp only [List.mem_append, List.mem_singleton]
    split
    · next hx => simp [hx, Gate.freed]
    · next hx => rw [h3 x]; simp [hx]

theorem Gpm.bind_listsOk {m : Gpm} (g : GateNo) (rest : List GateNo) (k : Key) (mode : GateMode) (r : Resolution)
    (hf : m.free = g :: rest) (h : m.listsOk) : (Gpm.bind g rest k mode r m).listsOk := by
  unfold Gpm.bind
  apply Gpm.enter_listsOk
  obtain ⟨h1, h2, h3⟩ := h
  rw [hf, List.nodup_cons] at h2
  refine ⟨h1, h2.2, fun x => ?_⟩
  have e : ∀ u : Gpm, u.gates = (m.modGate g (Gate.bindTo k mode r)).gates →
      u.gate x = (m.modGate g (Gate.bindTo k mode r)).gate x := by
    intro u hu; unfold Gpm.gate; rw [hu]
  refine Iff.trans ?_ (by rw [e { m.modGate g (Gate.bindTo k mode r) with free := rest, binds := sat32 (m.binds + 1) } rfl])
  rw [Gpm.gate_modGate]
  have h3x := h3 x
  rw [hf, List.mem_cons] at h3x
  split
  · next hx =>
    subst hx
    exact ⟨fun hm => absurd hm h2.1, fun hb => by simp [Gate.bindTo] at hb⟩
  · next hx =>
    rw [← h3x]
    exact ⟨fun hm => Or.inr hm, fun hm => hm.resolve_left hx⟩

/-! ### The shared operations -/

theorem quiet_bindGate {i : Slot} {mode : GateMode} {r : Resolution} {s t : State} (h : bindGate i mode r s = some t) :
    Quiet s t := by
  unfold bindGate at h
  split at h
  · next g rest e hfree he =>
    rw [Option.some.injEq] at h
    subst h
    exact (quiet_gpm s _ (Gpm.bind_listsOk g rest _ _ _ hfree)).trans
      (quiet_modEntry _ i (fun x => { x with gate := some ⟨g, (s.gpm.gate g).epoch + 1⟩ }) fun _ => rfl)
  · cases h

theorem quiet_freeGateOf (i : Slot) (s : State) : Quiet s (freeGateOf i s) := by
  unfold freeGateOf
  split
  · exact Quiet.refl s
  · next r _ =>
    exact (quiet_gpm s _ (Gpm.freeGate_listsOk r.gate)).trans
      (quiet_modEntry _ i (fun x => { x with gate := none }) fun _ => rfl)

theorem quiet_onGateOf (i : Slot) (f : GateNo → Gpm → Gpm) (s : State) (hf : ∀ g m, m.listsOk → (f g m).listsOk) :
    Quiet s (onGateOf i f s) := by
  unfold onGateOf
  split
  · exact Quiet.refl s
  · exact quiet_gpm s _ (hf _ _)

theorem sat32_le (n : Nat) : sat32 n ≤ 4294967295 := Nat.min_le_right ..

theorem quiet_addToPool (p : Port) (n : Nat) (s : State) : Quiet s (addToPool p n s) := by
  unfold addToPool
  split
  · next h =>
    refine ⟨rfl, rfl, rfl, rfl, rfl, rfl, rfl, rfl, rfl, fun _ => rfl, rfl, rfl, rfl, rfl, rfl, rfl, rfl, id, ?_, id, id,
      id⟩
    intro hs q
    rw [State.cruAt_modCru]
    split
    · exact ⟨h, (hs p).2⟩
    · exact hs q
  · dsimp only
    refine Quiet.trans ?_ (quiet_raiseEpisode _ _ _ _ (by simp [NoticeClass.deviceScope]))
    refine Quiet.trans ?_ (quiet_overflow (s.modCru p fun c => { c with a := maxA }) _)
    exact quiet_modCru s p (fun c => { c with a := maxA }) fun c hc => ⟨le_refl _, hc.2⟩

theorem quiet_creditReport (p : Port) (l d : Nat) (s : State) : Quiet s (creditReport p l d s) := by
  unfold creditReport
  dsimp only
  refine Quiet.trans ?_ (quiet_addToPool p _ _)
  refine Quiet.trans ?_ (quiet_modEpisode _ p _)
  exact quiet_modCru s p _ fun c hc => ⟨hc.1, sat32_le _⟩

theorem quiet_grant (p : Port) (share : Nat) (s : State) (i : Slot) : Quiet s (grant p share s i) := by
  unfold grant
  split
  · exact Quiet.refl s
  · dsimp only
    refine Quiet.trans ?_ (quiet_modEntry _ i _ fun _ => rfl)
    refine Quiet.trans ?_ (quiet_onGateOf i _ _ fun g m => Gpm.addAllowance_listsOk g _)
    exact quiet_modCru s p _ fun c hc => ⟨(Nat.sub_le _ _).trans hc.1, hc.2⟩

theorem quiet_distribute (p : Port) (s : State) : Quiet s (distribute p s) := by
  unfold distribute
  dsimp only
  split
  · exact Quiet.refl s
  · split
    · exact Quiet.refl s
    · exact Quiet.fold (quiet_grant p _) _ s

theorem quiet_rerate (p : Port) (s : State) : Quiet s (rerate p s) := by
  unfold rerate
  dsimp only
  refine Quiet.fold (fun u i => quiet_onGateOf i _ u fun g m h => ?_) _ s
  split
  · exact Gpm.want_listsOk g _ _ _ h
  · exact h

theorem quiet_makeUngated (p : Port) (i : Slot) (s : State) : Quiet s (makeUngated p i s) := by
  unfold makeUngated
  dsimp only
  refine Quiet.trans ?_ (quiet_raiseEpisode _ _ _ _ (by simp [NoticeClass.deviceScope]))
  refine Quiet.trans ?_ (quiet_adu (State.modEpisode p _ _) _)
  refine Quiet.trans ?_ (quiet_modEpisode _ p _)
  exact quiet_modEntry s i _ fun _ => rfl

theorem quiet_joinAdmitted (p : Port) (i : Slot) (mark : Bool) (s : State) : Quiet s (joinAdmitted p i mark s) := by
  unfold joinAdmitted
  dsimp only
  refine Quiet.trans ?_ (quiet_modEpisode _ p _)
  refine Quiet.trans ?_ (quiet_modAdu _ p _)
  exact quiet_modEntry s i _ fun _ => rfl

theorem quiet_admitNew (p : Port) (i : Slot) (s : State) : Quiet s (admitNew p i s) := by
  unfold admitNew
  split
  · exact quiet_makeUngated p i s
  · next t h => exact (quiet_bindGate h).trans (quiet_joinAdmitted p i false t)

theorem quiet_admitWaiting (p : Port) (mark : Bool) (i : Slot) (s : State) : Quiet s (admitWaiting p mark i s) := by
  unfold admitWaiting
  dsimp only
  refine Quiet.trans ?_ (quiet_joinAdmitted p i mark _)
  refine Quiet.trans ?_ (quiet_modAdu _ p _)
  exact quiet_onGateOf i _ s fun g _ => Gpm.want_listsOk g _ _ _

theorem quiet_hold (p : Port) (i : Slot) (s : State) : Quiet s (hold p i s) := by
  unfold hold
  split
  · exact quiet_makeUngated p i s
  · next t h =>
    dsimp only
    refine Quiet.trans ?_ (quiet_modAdu _ p _)
    exact (quiet_bindGate h).trans (quiet_modEntry t i _ fun _ => rfl)

theorem quiet_bypass (p : Port) (i : Slot) (s : State) : Quiet s (bypass p i s) := by
  unfold bypass
  dsimp only
  refine Quiet.trans ?_ (quiet_raiseEpisode _ _ _ _ (by simp [NoticeClass.deviceScope]))
  refine Quiet.trans ?_ (quiet_adu (State.modEpisode p _ _) _)
  refine Quiet.trans ?_ (quiet_modEpisode _ p _)
  refine Quiet.trans ?_ (quiet_modEntry _ i _ fun _ => rfl)
  exact (quiet_modAdu s p _).trans (quiet_freeGateOf i _)

theorem quiet_takeEntry (i : Slot) (s : State) : Quiet s (takeEntry i s) := quiet_modEntry s i _ fun _ => rfl

theorem quiet_holdOrBypass (p : Port) (i : Slot) (s : State) : Quiet s (holdOrBypass p i s) := by
  unfold holdOrBypass
  split
  · exact quiet_hold p i s
  · exact quiet_bypass p i s

theorem quiet_placeAtOpening (p : Port) (s : State) (i : Slot) : Quiet s (placeAtOpening p s i) := by
  unfold placeAtOpening
  dsimp only
  split
  · exact (quiet_takeEntry i s).trans (quiet_admitNew p i _)
  · exact (quiet_takeEntry i s).trans (quiet_holdOrBypass p i _)

theorem quiet_openingFill (p : Port) (s : State) : Quiet s (openingFill p s) := Quiet.fold (quiet_placeAtOpening p) _ s

theorem quiet_refill (p : Port) (s : State) : Quiet s (refill p s) := by
  unfold refill
  split
  · refine Quiet.fold (fun u i => ?_) _ s
    split
    · exact quiet_admitWaiting p false i u
    · exact Quiet.refl u
  · exact Quiet.refl s

theorem quiet_rerateIfChanged (p : Port) (k : Nat) (s : State) : Quiet s (rerateIfChanged p k s) := by
  unfold rerateIfChanged
  split
  · exact Quiet.refl s
  · exact quiet_rerate p s

theorem quiet_placeArrival (p : Port) (i : Slot) (s : State) : Quiet s (placeArrival p i s) := by
  unfold placeArrival
  split
  · exact quiet_admitNew p i _
  · exact quiet_holdOrBypass p i _

theorem quiet_arrive (p : Port) (i : Slot) (s : State) : Quiet s (arrive p i s) :=
  (((quiet_takeEntry i s).trans (quiet_placeArrival p i _)).trans (quiet_refill p _)).trans
    (quiet_rerateIfChanged p _ _)

theorem quiet_holdPressureOn (i : Slot) (held : BitVec 24) (s : State) : Quiet s (holdPressureOn i held s) := by
  have h := quiet_modEntry s i (fun x => { x with lastHeld := some held }) fun _ => rfl
  unfold holdPressureOn
  split
  · exact Quiet.refl s
  · dsimp only
    split
    · split
      · exact (h.trans (quiet_admitWaiting _ true i _)).trans (quiet_rerate _ _)
      · exact h.trans (quiet_bypass _ i _)
    · exact h.trans (quiet_adu _ _)

theorem quiet_releaseEntry (s : State) (i : Slot) : Quiet s (releaseEntry s i) := by
  unfold releaseEntry
  split
  · exact Quiet.refl s
  · split
    · exact (quiet_onGateOf i _ s fun g _ => Gpm.release_listsOk g).trans (quiet_modEntry _ i _ fun _ => rfl)
    · exact Quiet.refl s

theorem quiet_releaseAll (p : Port) (s : State) : Quiet s (releaseAll p s) :=
  (Quiet.fold quiet_releaseEntry _ s).trans (quiet_modAdu _ p _)

theorem quiet_returnEntry (s : State) (i : Slot) : Quiet s (returnEntry s i) :=
  (quiet_freeGateOf i s).trans (quiet_modEntry _ i _ fun _ => rfl)

theorem quiet_returnAll (p : Port) (s : State) : Quiet s (returnAll p s) :=
  (Quiet.fold quiet_returnEntry _ s).trans (quiet_modAdu _ p _)

theorem quiet_enterStep (p : Port) (index : Nat) (byGuard : Bool) (s : State) :
    Quiet s (enterStep p index byGuard s) := by
  unfold enterStep
  dsimp only
  refine Quiet.trans ?_ (quiet_raiseEpisode _ _ _ _ (by simp [NoticeClass.deviceScope]))
  refine Quiet.trans ?_ (quiet_rerate p _)
  refine Quiet.trans ?_ (quiet_refill p _)
  refine Quiet.trans ?_ (quiet_modPrc _ p _ fun _ => rfl)
  refine Quiet.trans ?_ (quiet_modCru _ p _ fun c hc => ⟨hc.1, Nat.zero_le _⟩)
  exact quiet_modEpisode s p _

theorem quiet_enterDrain (p : Port) (s : State) : Quiet s (enterDrain p s) :=
  ((quiet_enterPort s p .drain).trans (quiet_releaseAll p _)).trans (quiet_modPrc _ p _ fun _ => rfl)

theorem quiet_endStep (p : Port) (byGuard : Bool) (s : State) : Quiet s (endStep p byGuard s) := by
  unfold endStep
  dsimp only
  split
  · exact quiet_enterStep ..
  · exact quiet_enterDrain ..

theorem quiet_reportStages (p : Port) (l d : Nat) (s : State) : Quiet s (reportStages p l d s) := by
  unfold reportStages
  dsimp only
  have h := (quiet_creditReport p l d s).trans (quiet_distribute p _)
  split
  · exact h.trans (quiet_endStep ..)
  · exact h

theorem quiet_openEpisode (p : Port) (o : Origin) (q : ProgNo) (s : State) : Quiet s (openEpisode p o q s) := by
  unfold openEpisode
  dsimp only
  refine Quiet.trans ?_ (quiet_raiseEpisode _ _ _ _ (by simp [NoticeClass.deviceScope]))
  refine Quiet.trans ?_ (quiet_enterStep p 0 false _)
  refine Quiet.trans ?_ (quiet_openingFill p _)
  refine Quiet.trans ?_ (quiet_modPrc _ p _ fun _ => rfl)
  refine Quiet.trans ?_ (quiet_enterPort _ p _)
  refine Quiet.trans ?_ (quiet_modCru _ p _ fun c hc => ⟨Nat.zero_le _, Nat.zero_le _⟩)
  refine Quiet.trans ?_ (quiet_modOev _ p _ fun o h => ⟨le_refl _, h.1.trans h.2⟩)
  refine Quiet.trans ?_ (quiet_modEpisode _ p _)
  exact quiet_prc s _

theorem quiet_checkOpening (p : Port) (s : State) : Quiet s (checkOpening p s) := by
  unfold checkOpening
  split
  · exact quiet_openEpisode ..
  · exact Quiet.refl s

theorem quiet_toCooldown (p : Port) (s : State) : Quiet s (toCooldown p s) := by
  unfold toCooldown
  split
  · exact quiet_enterPort ..
  · exact (quiet_enterPort ..).trans (quiet_modPrc _ p _ fun _ => rfl)

theorem quiet_afterEnd (p : Port) (o : EpisodeOutcome) (slot : Option ProgNo) (s : State) :
    Quiet s (afterEnd p o slot s) := by
  have hc := quiet_clearStandby s p
  have hopen : ∀ q, Quiet s ((openEpisode p .manual q (clearStandby p s)).raiseEpisode .standbyStart p q.val) :=
    fun q => (hc.trans (quiet_openEpisode ..)).trans (quiet_raiseEpisode _ _ _ _ (by simp [NoticeClass.deviceScope]))
  unfold afterEnd
  dsimp only
  split
  · split
    · exact (hc.trans (quiet_enterPort ..)).trans (quiet_raiseEpisode _ _ _ _ (by simp [NoticeClass.deviceScope]))
    · split
      · exact hopen _
      · exact hc.trans (quiet_toCooldown ..)
  · split
    · exact hopen _
    · exact hc.trans (quiet_toCooldown ..)
  · exact hc.trans (quiet_toCooldown ..)
  · exact hc.trans (quiet_toCooldown ..)
  · exact hc.trans (quiet_enterPort ..)
  · exact hc.trans (quiet_enterPort ..)
  · exact hc.trans (quiet_enterPort ..)
  · exact hc.trans (quiet_enterPort ..)

theorem quiet_closeEpisode (p : Port) (o : EpisodeOutcome) (s : State) : Quiet s (closeEpisode p o s) := by
  unfold closeEpisode
  dsimp only
  refine Quiet.trans ?_ (quiet_raiseEpisode _ _ _ _ (by simp [NoticeClass.deviceScope]))
  refine Quiet.trans ?_ (quiet_append (State.modEpisode p _ _) _)
  refine Quiet.trans ?_ (quiet_modEpisode _ p _)
  refine Quiet.trans ?_ (quiet_modCru _ p _ fun c hc => ⟨Nat.zero_le _, Nat.zero_le _⟩)
  exact (quiet_modEpisode s p _).trans (quiet_returnAll p _)

theorem quiet_endEpisode (p : Port) (o : EpisodeOutcome) (s : State) : Quiet s (endEpisode p o s) :=
  (quiet_closeEpisode p o s).trans (quiet_afterEnd p o _ _)

theorem quiet_reportToPrc (p : Port) (l d : Nat) (s : State) : Quiet s (reportToPrc p l d s) := by
  have hr := quiet_restartStale s p
  unfold reportToPrc
  dsimp only
  split
  · exact Quiet.refl s
  · split
    · exact (quiet_enterPort ..).trans (quiet_modPrc _ p _ fun _ => rfl)
    · exact Quiet.refl s
  · split
    · exact hr.trans (quiet_enterPort ..)
    · exact hr.trans (quiet_checkOpening ..)
  · exact hr.trans (quiet_reportStages ..)
  · exact hr
  · split
    · exact hr.trans (quiet_endEpisode ..)
    · exact hr
  · exact Quiet.refl s

theorem quiet_teardownPort (o : EpisodeOutcome) (s : State) (p : Port) : Quiet s (teardownPort o s p) := by
  unfold teardownPort
  split
  · exact quiet_endEpisode ..
  · exact quiet_endEpisode ..
  · exact quiet_endEpisode ..
  · exact quiet_enterPort ..
  · exact quiet_enterPort ..
  · exact Quiet.refl s
  · exact Quiet.refl s

end Sys2Proof.Machine
end

