-- ==== Sys2Proof/Laws/PerInstr.lean ====
section
/-! SUPPORT. A statement made for every command: the request frame that a request command stands for is taken
as that very command (Table 12-3), which ties the commands' names to the kinds of the frames in the request
queue. -/

namespace Sys2Proof.Laws

open Sys2Proof Sys2Proof.Machine

/-- The request frame of a well-formed command is read as that command; a command that is no request has
none. -/
def RequestRoundTrip.Statement (i : Instr) : Prop :=
  ∀ r, requestOf i = some r → wellFormed i = true → requestCommand r = i

/-- A kind that no row of Table 12-3 gives is read as an unknown request. -/
theorem requestCommand_unknown (k t : Byte) (b : List Byte) (h : knownKind k = false) :
    requestCommand ⟨k, t, b⟩ = .unknownRequest k t b := by
  unfold knownKind bodyLength at h
  unfold requestCommand
  dsimp only at h ⊢
  split <;> simp_all

theorem RequestRoundTrip.fabricFrameEvent (syms : List LaneSym) :
    RequestRoundTrip.Statement (Instr.fabricFrameEvent syms) := nofun

theorem RequestRoundTrip.occupancyReport (port : Port) (seq cells : BitVec 16) (drained : BitVec 32) :
    RequestRoundTrip.Statement (Instr.occupancyReport port seq cells drained) := nofun

theorem RequestRoundTrip.sighting (hash : BitVec 32) (port : Port) (ingress : BitVec 6) (service : BitVec 16) :
    RequestRoundTrip.Statement (Instr.sighting hash port ingress service) := nofun

theorem RequestRoundTrip.flowEnd (hash : BitVec 32) (port : Port) (gate : Option GateRef) (left : BitVec 24) :
    RequestRoundTrip.Statement (Instr.flowEnd hash port gate left) := nofun

theorem RequestRoundTrip.gateSpent (gate : GateNo) (epoch : BitVec 4) (echo : BitVec 8) (hash : BitVec 32) :
    RequestRoundTrip.Statement (Instr.gateSpent gate epoch echo hash) := nofun

theorem RequestRoundTrip.holdPressure (gate : GateNo) (epoch : BitVec 4) (hash : BitVec 32) (held : BitVec 24) :
    RequestRoundTrip.Statement (Instr.holdPressure gate epoch hash held) := nofun

theorem RequestRoundTrip.debounceExpiry (port : Port) :
    RequestRoundTrip.Statement (Instr.debounceExpiry port) := nofun

theorem RequestRoundTrip.staleExpiry (port : Port) :
    RequestRoundTrip.Statement (Instr.staleExpiry port) := nofun

theorem RequestRoundTrip.guardExpiry (port : Port) :
    RequestRoundTrip.Statement (Instr.guardExpiry port) := nofun

theorem RequestRoundTrip.drainExpiry (port : Port) :
    RequestRoundTrip.Statement (Instr.drainExpiry port) := nofun

theorem RequestRoundTrip.cooldownExpiry (port : Port) :
    RequestRoundTrip.Statement (Instr.cooldownExpiry port) := nofun

theorem RequestRoundTrip.agingEvent (slot : Slot) :
    RequestRoundTrip.Statement (Instr.agingEvent slot) := nofun

theorem RequestRoundTrip.idleIntervalExpiry :
    RequestRoundTrip.Statement (Instr.idleIntervalExpiry) := nofun

theorem RequestRoundTrip.fabricTransmitComplete :
    RequestRoundTrip.Statement (Instr.fabricTransmitComplete) := nofun

theorem RequestRoundTrip.ctlByteReceived (b : Byte) :
    RequestRoundTrip.Statement (Instr.ctlByteReceived b) := nofun

theorem RequestRoundTrip.ctlFramingError :
    RequestRoundTrip.Statement (Instr.ctlFramingError) := nofun

theorem RequestRoundTrip.interByteGapExpiry :
    RequestRoundTrip.Statement (Instr.interByteGapExpiry) := nofun

theorem RequestRoundTrip.ctlTransmitComplete :
    RequestRoundTrip.Statement (Instr.ctlTransmitComplete) := nofun

theorem RequestRoundTrip.resetNAssert :
    RequestRoundTrip.Statement (Instr.resetNAssert) := nofun

theorem RequestRoundTrip.deviceResetComplete :
    RequestRoundTrip.Statement (Instr.deviceResetComplete) := nofun

theorem RequestRoundTrip.identify (tag : Byte) (body : List Byte) :
    RequestRoundTrip.Statement (Instr.identify tag body) := by
  intro r h _
  cases h
  rfl

theorem RequestRoundTrip.resetDevice (tag : Byte) (body : List Byte) :
    RequestRoundTrip.Statement (Instr.resetDevice tag body) := by
  intro r h _
  cases h
  rfl

theorem RequestRoundTrip.status (tag : Byte) (body : List Byte) :
    RequestRoundTrip.Statement (Instr.status tag body) := by
  intro r h _
  cases h
  rfl

theorem RequestRoundTrip.time (tag : Byte) (body : List Byte) :
    RequestRoundTrip.Statement (Instr.time tag body) := by
  intro r h _
  cases h
  rfl

theorem RequestRoundTrip.setDevice (tag : Byte) (body : List Byte) :
    RequestRoundTrip.Statement (Instr.setDevice tag body) := by
  intro r h _
  cases h
  rfl

theorem RequestRoundTrip.linkStart (tag : Byte) (body : List Byte) :
    RequestRoundTrip.Statement (Instr.linkStart tag body) := by
  intro r h _
  cases h
  rfl

theorem RequestRoundTrip.linkStop (tag : Byte) (body : List Byte) :
    RequestRoundTrip.Statement (Instr.linkStop tag body) := by
  intro r h _
  cases h
  rfl

theorem RequestRoundTrip.linkReset (tag : Byte) (body : List Byte) :
    RequestRoundTrip.Statement (Instr.linkReset tag body) := by
  intro r h _
  cases h
  rfl

theorem RequestRoundTrip.setPort (tag : Byte) (body : List Byte) :
    RequestRoundTrip.Statement (Instr.setPort tag body) := by
  intro r h _
  cases h
  rfl

theorem RequestRoundTrip.getPort (tag : Byte) (body : List Byte) :
    RequestRoundTrip.Statement (Instr.getPort tag body) := by
  intro r h _
  cases h
  rfl

theorem RequestRoundTrip.arm (tag : Byte) (body : List Byte) :
    RequestRoundTrip.Statement (Instr.arm tag body) := by
  intro r h _
  cases h
  rfl

theorem RequestRoundTrip.disarm (tag : Byte) (body : List Byte) :
    RequestRoundTrip.Statement (Instr.disarm tag body) := by
  intro r h _
  cases h
  rfl

theorem RequestRoundTrip.startRelief (tag : Byte) (body : List Byte) :
    RequestRoundTrip.Statement (Instr.startRelief tag body) := by
  intro r h _
  cases h
  rfl

theorem RequestRoundTrip.stopRelief (tag : Byte) (body : List Byte) :
    RequestRoundTrip.Statement (Instr.stopRelief tag body) := by
  intro r h _
  cases h
  rfl

theorem RequestRoundTrip.pause (tag : Byte) (body : List Byte) :
    RequestRoundTrip.Statement (Instr.pause tag body) := by
  intro r h _
  cases h
  rfl

theorem RequestRoundTrip.resume (tag : Byte) (body : List Byte) :
    RequestRoundTrip.Statement (Instr.resume tag body) := by
  intro r h _
  cases h
  rfl

theorem RequestRoundTrip.setLevels (tag : Byte) (body : List Byte) :
    RequestRoundTrip.Statement (Instr.setLevels tag body) := by
  intro r h _
  cases h
  rfl

theorem RequestRoundTrip.getLevels (tag : Byte) (body : List Byte) :
    RequestRoundTrip.Statement (Instr.getLevels tag body) := by
  intro r h _
  cases h
  rfl

theorem RequestRoundTrip.setWindow (tag : Byte) (body : List Byte) :
    RequestRoundTrip.Statement (Instr.setWindow tag body) := by
  intro r h _
  cases h
  rfl

theorem RequestRoundTrip.getWindow (tag : Byte) (body : List Byte) :
    RequestRoundTrip.Statement (Instr.getWindow tag body) := by
  intro r h _
  cases h
  rfl

theorem RequestRoundTrip.setDefaultClass (tag : Byte) (body : List Byte) :
    RequestRoundTrip.Statement (Instr.setDefaultClass tag body) := by
  intro r h _
  cases h
  rfl

theorem RequestRoundTrip.writeProgram (tag : Byte) (body : List Byte) :
    RequestRoundTrip.Statement (Instr.writeProgram tag body) := by
  intro r h _
  cases h
  rfl

theorem RequestRoundTrip.readProgram (tag : Byte) (body : List Byte) :
    RequestRoundTrip.Statement (Instr.readProgram tag body) := by
  intro r h _
  cases h
  rfl

theorem RequestRoundTrip.readTable (tag : Byte) (body : List Byte) :
    RequestRoundTrip.Statement (Instr.readTable tag body) := by
  intro r h _
  cases h
  rfl

theorem RequestRoundTrip.clearHistory (tag : Byte) (body : List Byte) :
    RequestRoundTrip.Statement (Instr.clearHistory tag body) := by
  intro r h _
  cases h
  rfl

theorem RequestRoundTrip.setNoticeLevels (tag : Byte) (body : List Byte) :
    RequestRoundTrip.Statement (Instr.setNoticeLevels tag body) := by
  intro r h _
  cases h
  rfl

theorem RequestRoundTrip.readFault (tag : Byte) (body : List Byte) :
    RequestRoundTrip.Statement (Instr.readFault tag body) := by
  intro r h _
  cases h
  rfl

theorem RequestRoundTrip.unknownRequest (kind tag : Byte) (body : List Byte) :
    RequestRoundTrip.Statement (Instr.unknownRequest kind tag body) := by
  intro r h w
  cases h
  simp only [wellFormed, kindUnknown, Bool.and_eq_true, Bool.not_eq_true'] at w
  exact requestCommand_unknown _ _ _ w.2

theorem RequestRoundTrip.resetNRelease :
    RequestRoundTrip.Statement (Instr.resetNRelease) := nofun

end Sys2Proof.Laws
end

