-- ==== Sys2Proof/Laws/Requests.lean ====
section
/-! SUPPORT. What follows every event, and taking a request: the transmitters at rest, a reply and the settling
after it, and the whole of a request command that is taken. -/

namespace Sys2Proof.Machine

/-! ### The transmitters -/

/-- With nothing to begin on the lane, the fabric transmitter changes nothing. -/
theorem fabPump_eq_of_laneSettled {s : State} (h : s.laneSettled) : fabPump s = s := by
  unfold fabPump
  by_cases h1 : s.flc.tx.isSome ∨ s.flc.link = .down
  · rw [if_pos h1]
  · rw [if_neg h1]
    simp only [not_or] at h1
    obtain ⟨ha, hb⟩ := h1
    have hn : s.flc.tx = none := by simpa using ha
    obtain ⟨h2, h3, h4⟩ := h hn hb
    rw [if_neg (by simp [h2]), if_neg h3, if_neg h4]

/-- With nothing to begin on the line, the control transmitter changes nothing. -/
theorem ctlPump_eq_of_lineSettled {s : State} (h : s.lineSettled) : ctlPump s = s := by
  unfold ctlPump
  by_cases h1 : s.clc.tx.isSome
  · rw [if_pos h1]
  · rw [if_neg h1]
    obtain ⟨h2, h3⟩ := h (by simpa using h1)
    rw [h2, h3]; rfl

/-- With nothing to begin on either link, settling changes nothing. -/
theorem settle_eq_of_settled {s : State} (h : s.settled) : settle s = s := by
  unfold settle; rw [fabPump_eq_of_laneSettled h.1, ctlPump_eq_of_lineSettled h.2]

/-- With nothing to begin on the lane, settling is the control transmitter's part. -/
theorem settle_eq_ctlPump {s : State} (h : s.laneSettled) : settle s = ctlPump s := by
  unfold settle; rw [fabPump_eq_of_laneSettled h]

/-- The fabric transmitter does not read the CLC. -/
theorem fabPump_clc (s : State) (c : Clc) : fabPump { s with clc := c } = { fabPump s with clc := c } := by
  unfold fabPump beginOrderFrame beginFrame enterDown
  simp only [State.modLink, State.setLink, State.raiseDevice, State.raise, State.stamp, State.now]
  split_ifs <;> rfl

/-- What the fabric transmitter leaves alone. -/
theorem fabPump_frame (s : State) : (fabPump s).phase = s.phase ∧ (fabPump s).tmb = s.tmb ∧
    (fabPump s).oev = s.oev ∧ (fabPump s).rtb = s.rtb ∧ (fabPump s).cmp = s.cmp ∧ (fabPump s).pgs = s.pgs ∧
    (fabPump s).prc = s.prc ∧ (fabPump s).adu = s.adu ∧ (fabPump s).cru = s.cru ∧ (fabPump s).clc = s.clc ∧
    (fabPump s).free = s.free ∧ (fabPump s).pending = s.pending := by
  unfold fabPump beginOrderFrame beginFrame enterDown
  split_ifs <;> exact ⟨rfl, rfl, rfl, rfl, rfl, rfl, rfl, rfl, rfl, rfl, rfl, rfl⟩

/-- What the control transmitter leaves alone. -/
theorem ctlPump_frame (s : State) : (ctlPump s).phase = s.phase ∧ (ctlPump s).tmb = s.tmb ∧
    (ctlPump s).flc = s.flc ∧ (ctlPump s).oev = s.oev ∧ (ctlPump s).rtb = s.rtb ∧ (ctlPump s).cmp = s.cmp ∧
    (ctlPump s).pgs = s.pgs ∧ (ctlPump s).prc = s.prc ∧ (ctlPump s).adu = s.adu ∧ (ctlPump s).cru = s.cru ∧
    (ctlPump s).gpm = s.gpm ∧ (ctlPump s).free = s.free ∧ (ctlPump s).pending = s.pending := by
  unfold ctlPump
  split
  · exact ⟨rfl, rfl, rfl, rfl, rfl, rfl, rfl, rfl, rfl, rfl, rfl, rfl, rfl⟩
  · split
    · exact ⟨rfl, rfl, rfl, rfl, rfl, rfl, rfl, rfl, rfl, rfl, rfl, rfl, rfl⟩
    · split <;> exact ⟨rfl, rfl, rfl, rfl, rfl, rfl, rfl, rfl, rfl, rfl, rfl, rfl, rfl⟩

/-- What settling leaves alone. -/
theorem settle_frame (s : State) : (settle s).phase = s.phase ∧ (settle s).tmb = s.tmb ∧
    (settle s).oev = s.oev ∧ (settle s).rtb = s.rtb ∧ (settle s).cmp = s.cmp ∧ (settle s).pgs = s.pgs ∧
    (settle s).prc = s.prc ∧ (settle s).adu = s.adu ∧ (settle s).cru = s.cru ∧
    (settle s).free = s.free ∧ (settle s).pending = s.pending := by
  obtain ⟨a1, a2, a3, a4, a5, a6, a7, a8, a9, a10, a11, a12⟩ := fabPump_frame s
  obtain ⟨b1, b2, b3, b4, b5, b6, b7, b8, b9, b10, b11, b12, b13⟩ := ctlPump_frame (fabPump s)
  unfold settle
  exact ⟨b1.trans a1, b2.trans a2, b4.trans a3, b5.trans a4, b6.trans a5, b7.trans a6, b8.trans a7, b9.trans a8,
    b10.trans a9, b12.trans a11, b13.trans a12⟩

/-! ### Taking a request -/

/-- The CLC once a request has been taken, before its reply. -/
def Clc.taken (c : Clc) : Clc :=
  { c with
    requests := c.requests.tail
    ctr := { c.ctr with
      received := if c.requests = [] then sat32 (c.ctr.received + 1) else c.ctr.received } }

/-- The CLC once a reply has been composed and the free transmitter has begun the head reply. -/
def Clc.replied (r : CtlFrame) (c : Clc) : Clc :=
  let ctr := { c.ctr with composed := sat32 (c.ctr.composed + 1) }
  let q := c.replies ++ [r]
  if c.tx.isSome then { c with replies := q, ctr := ctr }
  else { c with
    replies := q.tail
    tx := q.head?.map fun x => ctlFrame x.kind x.tag x.body
    ctr := { ctr with sent := sat32 (ctr.sent + 1) } }

theorem Clc.taken_replied (r : CtlFrame) (c : Clc) : c.taken.replied r = c.answered r := by
  unfold Clc.taken Clc.replied Clc.answered
  cases c.tx <;> rfl

/-- A request that is taken runs on the state with the request out of the queue. -/
theorem requestEvent_taken {s : State} {kind tag : Byte} {body : List Byte} (run : State → State)
    (h : Takes s ⟨kind, tag, body⟩) :
    requestEvent kind tag body run s = run { s with clc := s.clc.taken } := by
  obtain ⟨_, hc, hq⟩ := h
  unfold requestEvent
  by_cases hh : s.clc.requests.head? = some ⟨kind, tag, body⟩
  · rw [if_pos hh, if_pos hc]
    have hne : s.clc.requests ≠ [] := by rintro h0; simp [h0] at hh
    simp only [dropHead, Clc.taken, if_neg hne]
  · have h0 : s.clc.requests = [] := by tauto
    rw [if_neg hh]
    simp only [h0, hc, and_self, if_true]
    congr 1
    simp [queueRequest, dropHead, Clc.taken, h0, State.modClcCtr]

/-- A reply and the settling after it. -/
theorem settle_putReply (kind tag : Byte) (body : List Byte) (s : State) :
    settle (putReply kind tag body s) =
      { fabPump s with clc := s.clc.replied ⟨replyKind kind, tag, body⟩ } := by
  have hp : fabPump (putReply kind tag body s) = { fabPump s with clc := { s.clc with
      replies := s.clc.replies ++ [⟨replyKind kind, tag, body⟩]
      ctr := { s.clc.ctr with composed := sat32 (s.clc.ctr.composed + 1) } } } := fabPump_clc s _
  unfold settle
  rw [hp]
  generalize fabPump s = u
  unfold ctlPump Clc.replied
  cases h : s.clc.tx with
  | some x => simp [h]
  | none =>
    cases hr : s.clc.replies with
    | nil => simp
    | cons a l => simp

/-- The whole of a request command that is taken and whose body has the right length. -/
theorem onRequest_taken {s : State} {kind tag : Byte} {body : List Byte} (run : List Byte → State → Effect)
    (h : Takes s ⟨kind, tag, body⟩) (hl : bodyLength kind body = some body.length) {t : State} {r : List Byte}
    (hr : run body { s with clc := s.clc.taken } = ({ t with clc := s.clc.taken }, r)) :
    onRequest kind tag body run s =
      .next { fabPump t with clc := s.clc.answered ⟨replyKind kind, tag, r⟩ } := by
  unfold onRequest onEvent
  rw [if_pos h.1, requestEvent_taken _ h]
  unfold runRequest
  rw [if_pos hl, hr]
  simp only [settle_putReply, fabPump_clc, Clc.taken_replied]

/-- A taken request whose body has the wrong length is refused with FORMAT. -/
theorem onRequest_format {s : State} {kind tag : Byte} {body : List Byte} (run : List Byte → State → Effect)
    (h : Takes s ⟨kind, tag, body⟩) (hl : bodyLength kind body ≠ some body.length) :
    onRequest kind tag body run s =
      .next { fabPump s with clc := s.clc.answered ⟨replyKind kind, tag, [3]⟩ } := by
  unfold onRequest onEvent
  rw [if_pos h.1, requestEvent_taken _ h]
  unfold runRequest
  rw [if_neg hl]
  simp only [settle_putReply, fabPump_clc, Clc.taken_replied]
  rfl

/-- The same, for a request that leaves the lane at rest. -/
theorem onRequest_answered {s : State} {kind tag : Byte} {body : List Byte} (run : List Byte → State → Effect)
    (h : Takes s ⟨kind, tag, body⟩) (hl : bodyLength kind body = some body.length) (t : State) (r : List Byte)
    (hr : run body { s with clc := s.clc.taken } = ({ t with clc := s.clc.taken }, r)) (ht : t.laneSettled) :
    onRequest kind tag body run s = .next { t with clc := s.clc.answered ⟨replyKind kind, tag, r⟩ } := by
  rw [onRequest_taken run h hl hr, fabPump_eq_of_laneSettled ht]

end Sys2Proof.Machine
end

