-- ==== Sys2Proof/Tests/Slice0.lean ====
section
/-! SUPPORT. Tests. The WellFormed smoke, the CRCs and lines of the manual's worked sequences, each on one small
state; and for every statement with hypotheses a witness, a state and operands that meet them, clause by
clause. -/

namespace Sys2Proof.Tests

-- Each test is a kernel evaluation of its own: run in parallel they ask for more stacks than the memory limit holds.
set_option Elab.async false

open Sys2Proof Sys2Proof.Machine

/-! ### Small states -/

/-- The link is UP, and nothing is to be sent. -/
def up : State := { State.reset with flc := { Flc.reset with link := .up } }

/-- The state in which a link has a certain state. -/
def linkIn (l : LinkState) : State := { State.reset with flc := { Flc.reset with link := l } }

/-- A part that is sending a fabric frame. -/
def busyIn (l : LinkState) : State := { State.reset with flc := { Flc.reset with link := l, tx := some [] } }

/-- Port 0 in a state, with the timers of Table 6-3 started at 0, and F 1. -/
def portIn (ps : PortState) : PrcPort := { PrcPort.reset with
  config := { PortConfig.reset with fanIn := 1 }
  state := ps
  debounce := if ps = .watch then .running 0 50 else .stopped
  stale := if ps.runsStale then .running 0 100 else .stopped
  guard := if ps = .relief then .running 0 2000 else if ps = .paused then .frozen 20 2000 else .stopped
  drain := if ps = .drain then .running 0 2000 else .stopped
  cooldown := if ps = .cooldown then .running 0 500 else .stopped
  episode := if ps.hasEpisode then { Episode.reset with number := 1, stepsEntered := 1 } else Episode.reset }

/-- An eligible entry of port 0 with hash 7, holding gate 0 when its state holds one. -/
def entryIn (st : EntryState) : Entry where
  hash := 7
  port := 0
  ingress := 0
  service := 0
  cls := 8
  eligible := true
  band := 3
  cap := 65536
  state := st
  gate := if st.holdsGate then some ⟨0, 1⟩ else none
  dry := if st = .admitted then some true else none
  overdraft := if st = .admitted then some false else none
  granted := 0
  lastHeld := none
  firstSeen := 0
  lastActivity := 0

/-- Gate 0 bound to the entry when its state holds a gate, every other gate FREE. -/
def gatesFor (st : EntryState) : Gpm :=
  if st.holdsGate then
    { Gpm.reset with
      gates := Gpm.reset.gates.set 0 ⟨1, some ⟨7, 0⟩, st.mode, 0, .coarse, 0, 0⟩
      free := (List.finRange 1023).map Fin.succ }
  else Gpm.reset

/-- Port 0 in a state at a time, with one entry in slot 0. -/
def demo (now : Nat) (ps : PortState) (st : EntryState) : State := { up with
  tmb := ⟨now⟩
  prc := ⟨Prc.reset.port.set 0 (portIn ps), 1⟩
  rtb := { Rtb.reset with table := [(0, entryIn st)], arrival := Rtb.reset.arrival.set 0 [0] }
  gpm := gatesFor st
  adu := { Adu.reset with
    port := Adu.reset.port.set 0 ⟨if st = .waiting then [0] else [], if st = .admitted then [0] else []⟩ } }

/-! ### The small states are states of the part -/

theorem demo_prcAt (now : Nat) (ps : PortState) (st : EntryState) (p : Port) :
    (demo now ps st).prcAt p = if p = 0 then portIn ps else PrcPort.reset := by
  show (Prc.reset.port.set 0 (portIn ps))[p.val] = _
  by_cases h : p = 0
  · subst h; simp
  · rw [if_neg h, Vector.getElem_set_ne _ _ (show (0 : Nat) ≠ _ from fun c => h (Fin.ext c.symm))]
    simp [Prc.reset]

theorem demo_aduAt (now : Nat) (ps : PortState) (st : EntryState) (p : Port) :
    (demo now ps st).aduAt p =
      if p = 0 then ⟨if st = .waiting then [0] else [], if st = .admitted then [0] else []⟩ else ⟨[], []⟩ := by
  show (Adu.reset.port.set 0 _)[p.val] = _
  by_cases h : p = 0
  · subst h; simp
  · rw [if_neg h, Vector.getElem_set_ne _ _ (show (0 : Nat) ≠ _ from fun c => h (Fin.ext c.symm))]
    simp [Adu.reset]

theorem demo_arrival (now : Nat) (ps : PortState) (st : EntryState) (p : Port) :
    (demo now ps st).rtb.arrival[p] = if p = 0 then [0] else [] := by
  show (Rtb.reset.arrival.set 0 [0])[p.val] = _
  by_cases h : p = 0
  · subst h; simp
  · rw [if_neg h, Vector.getElem_set_ne _ _ (show (0 : Nat) ≠ _ from fun c => h (Fin.ext c.symm))]
    simp [Rtb.reset]

theorem demo_entry? (now : Nat) (ps : PortState) (st : EntryState) (i : Slot) :
    (demo now ps st).rtb.entry? i = if i = 0 then some (entryIn st) else none := by
  by_cases h : i = 0
  · subst h; rfl
  · rw [if_neg h]
    have : ((0 : Slot) == i) = false := by simpa using fun c => h c.symm
    simp [demo, Rtb.entry?, List.find?, this]

theorem gatesFor_gate (st : EntryState) (g : GateNo) :
    (gatesFor st).gate g =
      if g = 0 ∧ st.holdsGate = true then ⟨1, some ⟨7, 0⟩, st.mode, 0, .coarse, 0, 0⟩ else Gate.reset := by
  unfold gatesFor
  cases hs : st.holdsGate
  · simp [Gpm.gate, Gpm.reset]
  · simp only [if_true, and_true]
    show (Gpm.reset.gates.set 0 _)[g.val] = _
    by_cases h : g = 0
    · subst h; simp
    · rw [if_neg h, Vector.getElem_set_ne _ _ (show (0 : Nat) ≠ _ from fun c => h (Fin.ext c.symm))]
      simp [Gpm.reset]

theorem gatesFor_free (st : EntryState) : (gatesFor st).fifo = [] ∧
    (gatesFor st).free = if st.holdsGate then (List.finRange 1023).map Fin.succ else List.finRange 1024 := by
  cases h : st.holdsGate <;> simp only [gatesFor, h, Gpm.reset, if_true, Bool.false_eq_true, if_false, and_self]

theorem gatesFor_lists (st : EntryState) : (gatesFor st).listsOk := by
  unfold Gpm.listsOk
  rw [(gatesFor_free st).1, (gatesFor_free st).2]
  simp only [gatesFor_gate]
  refine ⟨List.nodup_nil, ?_, fun g => ?_⟩
  · split
    · exact (List.nodup_finRange _).map (Fin.succ_injective _)
    · exact List.nodup_finRange _
  · cases hs : st.holdsGate
    · simp [Gate.reset]
    · simp only [if_true, and_true]
      by_cases h : g = 0
      · subst h; simp [Fin.succ_ne_zero]
      · simp only [h, if_false, Gate.reset, iff_true]
        exact List.mem_map.mpr ⟨g.pred h, List.mem_finRange _, Fin.succ_pred _ _⟩

/-- A port state that has a place for the entry's state makes a state whose entries, gates and collections
agree. -/
theorem demo_books (now : Nat) (ps : PortState) (st : EntryState) (h : st.occursIn ps = true) :
    (demo now ps st).booksOk where
  table := by
    refine ⟨List.pairwise_singleton _ _, fun p => ?_⟩
    rw [demo_arrival]
    refine ⟨by split <;> simp, fun i => ?_⟩
    simp only [demo_entry?]
    by_cases hp : p = 0 <;> by_cases hi : i = 0 <;> simp [hp, hi, entryIn, eq_comm (a := (0 : Port))]
  lists := gatesFor_lists st
  entries i e he := by
    rw [demo_entry?] at he
    split at he
    · cases he
      refine ⟨⟨?_, ?_, ?_, fun _ => rfl⟩, ?_⟩
      · unfold entryIn; dsimp only; split <;> simp_all
      · unfold entryIn; dsimp only; split <;> simp_all
      · unfold entryIn; dsimp only; split <;> simp_all
      · rw [demo_prcAt]; exact h
    · cases he
  held i e r he hr := by
    rw [demo_entry?] at he
    split at he
    · cases he
      unfold entryIn at hr
      dsimp only at hr
      split at hr
      · next hs =>
        cases hr
        show ((gatesFor st).gate 0).bound = _ ∧ ((gatesFor st).gate 0).epoch = _ ∧ ((gatesFor st).gate 0).mode = _
        rw [gatesFor_gate, if_pos ⟨rfl, hs⟩]
        exact ⟨rfl, rfl, rfl⟩
      · cases hr
    · cases he
  bound g k hb := by
    change ((gatesFor st).gate g).bound = _ at hb
    rw [gatesFor_gate] at hb
    split at hb
    · next hs =>
      cases hb
      refine ⟨0, entryIn st, ⟨0, 1⟩, by rw [demo_entry?]; rfl, rfl, rfl, ?_, hs.1.symm⟩
      unfold entryIn
      simp [hs.2]
    · cases hb
  unbound g hb := by
    change ((gatesFor st).gate g).bound = none at hb
    show ((gatesFor st).gate g).freeOk
    rw [gatesFor_gate] at hb ⊢
    split
    · next hs => rw [if_pos hs] at hb; cases hb
    · exact ⟨rfl, rfl, rfl, rfl⟩
  waiting p := by
    rw [demo_aduAt]
    by_cases hp : p = 0
    · subst hp
      refine ⟨by simp only [if_true]; split <;> simp, fun i => ?_⟩
      simp only [demo_entry?, if_true]
      by_cases hi : i = 0 <;> cases st <;> simp [hi, entryIn]
    · simp only [hp, if_false]
      refine ⟨List.nodup_nil, fun i => ?_⟩
      simp only [demo_entry?]
      by_cases hi : i = 0 <;> simp [hi, entryIn, Ne.symm hp]
  admitted p := by
    rw [demo_aduAt]
    by_cases hp : p = 0
    · subst hp
      refine ⟨by simp only [if_true]; split <;> simp, fun i => ?_⟩
      simp only [demo_entry?, if_true]
      by_cases hi : i = 0 <;> cases st <;> simp [hi, entryIn]
    · simp only [hp, if_false]
      refine ⟨List.nodup_nil, fun i => ?_⟩
      simp only [demo_entry?]
      by_cases hi : i = 0 <;> simp [hi, entryIn, Ne.symm hp]

/-- The agreement of entries, gates and collections looks at no other part of the state. -/
theorem booksOk_congr {s t : State} (hr : t.rtb = s.rtb) (hg : t.gpm = s.gpm) (ha : t.adu = s.adu)
    (hp : ∀ p, (t.prcAt p).state = (s.prcAt p).state) (h : s.booksOk) : t.booksOk := by
  obtain ⟨a, b, c, d, e, f, g, i⟩ := h
  unfold State.aduAt at g i
  constructor <;> (try unfold State.aduAt) <;> simp only [hr, hg, ha, hp] <;> assumption

theorem portIn_timers (ps : PortState) : (portIn ps).timersOk := by
  unfold PrcPort.timersOk
  cases ps <;> simp [portIn, Timer.active, PortState.runsStale, PortState.runsGuard, PortState.hasEpisode,
    PrcPort.reset]

theorem demo_timers (now : Nat) (ps : PortState) (st : EntryState) : (demo now ps st).prc.timersOk := by
  intro p
  show ((demo now ps st).prcAt p).timersOk
  rw [demo_prcAt]
  split
  · exact portIn_timers ps
  · exact portIn_timers .disarmed

/-! ### WellFormed smoke -/

theorem test_body_too_long_is_refused :
    wellFormed (.setPort 0 (List.replicate 1025 0)) = false ∧ wellFormed (.setPort 0 (List.replicate 1024 0)) = true := by
  decide +kernel

theorem test_known_kind_is_no_unknown_request :
    wellFormed (.unknownRequest 0x53 0 []) = false ∧ wellFormed (.unknownRequest 0x54 0 []) = true := by decide +kernel

/-! ### The CRCs of R1 and R181, over the nine characters 1 to 9 -/

theorem test_crc16_check_value : crc16 [0x31, 0x32, 0x33, 0x34, 0x35, 0x36, 0x37, 0x38, 0x39] = 0x29B1 := by
  decide +kernel

theorem test_crc32_check_value : crc32 [0x31, 0x32, 0x33, 0x34, 0x35, 0x36, 0x37, 0x38, 0x39] = 0xFC891918 := by
  decide +kernel

/-! ### Single steps, with the values of the manual's worked sequences -/

/-- The state a command leaves. -/
def after (c : Instr) (s : State) : State :=
  match exec c s with
  | .next t => t
  | _ => s

/-- The control transmitter is busy, so that a reply stays in the reply queue. -/
def lineBusy (s : State) : State := { s with clc := { s.clc with tx := some [] } }

/-- The body of the reply to a request. -/
def replyTo (c : Instr) (s : State) : Option (List Byte) :=
  (after c (lineBusy s)).clc.replies.getLast?.map fun r => r.body

/-- Port 5 of section 2.8 with a given OEV state. -/
def port5 (o : OevPort) : State := up.modOev 5 fun _ => o

/-- Section 2.8, event 4: the drained counter has wrapped. -/
theorem test_report_wraps :
    (after (.occupancyReport 5 2 40000 60000) (port5 ⟨true, 65531, 4294950000, 2, 2, 2, 1, 0⟩)).oevAt 5
      = ⟨true, 2, 60000, 9, 9, 3, 1, 0⟩ := by decide +kernel

/-- Section 2.8, event 6: the delta is clamped. -/
theorem test_report_clamps :
    (after (.occupancyReport 5 3 45000 30000000) (port5 ⟨true, 2, 60000, 9, 9, 3, 2, 0⟩)).oevAt 5
      = ⟨true, 3, 30000000, 10, 10, 4, 2, 1⟩ := by decide +kernel

/-- The link of section 1.8 before event 5 or event 7. -/
def link18 (expected : BitVec 16) (errors : Nat) : State :=
  { State.reset with flc := { Flc.reset with link := .up, expected := expected, errCount := errors, faultLimit := 3 } }

/-- Section 1.8, event 5: two frames are lost. -/
theorem test_lost_frames :
    (let t := after (.fabricFrameEvent (fabricFrame 704 [])) (link18 702 1)
     (t.flc.link, t.flc.expected, t.flc.errCount, t.flc.ctr.lost)) = (.up, 705, 2, 2) := by decide +kernel

/-- Section 1.8, event 9: the third error in a row is a link fault. -/
theorem test_bad_crc_faults :
    (let t := after (.fabricFrameEvent ((fabricFrame 706 []).dropLast ++ [.data 0])) (link18 706 2)
     (t.flc.link, t.flc.expected, t.flc.errCount, t.flc.ctr.linkFaults)) = (.faulted, 706, 3, 1) := by decide +kernel

/-- Section 3.10, event 6: an entry is removed when its age reaches the age limit. -/
theorem test_aging_at_the_limit :
    (after (.agingEvent 0) (demo 20000 .idle .seen)).rtb.entry? 0 = none ∧
    (after (.agingEvent 0) (demo 19999 .idle .seen)).rtb.entry? 0 ≠ none := by decide +kernel

/-- Section 3.10, event 10: a Flow End without its gate ends a held entry. -/
theorem test_flow_end_while_held :
    (let t := after (.flowEnd 7 0 none 0) (demo 5 .relief .waiting)
     (t.rtb.ctr.gateMismatches, (t.prcAt 0).episode.endedHeld, t.gpm.frees, t.rtb.table)) = (1, 1, 1, []) := by
  decide +kernel

theorem test_refund_of_an_admitted_entry :
    (after (.flowEnd 7 0 (some ⟨0, 1⟩) 2500) (demo 5 .relief .admitted)).cruAt 0 = ⟨2500, 0⟩ := by decide +kernel

theorem test_sighting_takes_the_lowest_slot :
    (let t := after (.sighting 8 0 3 443) (demo 5 .idle .seen)
     (t.rtb.arrival[(0 : Port)], t.fanIn 0, t.cmp.dfltHits)) = ([0, 1], 2, 1) := by decide +kernel

theorem test_gate_spent_makes_dry :
    (after (.gateSpent 0 1 0 7) ((demo 5 .relief .admitted).modEntry 0 fun e => { e with dry := some false })).rtb.entry? 0
      = some (entryIn .admitted) := by decide +kernel

theorem test_overdraft_admission :
    (let t := after (.holdPressure 0 1 7 9000) (demo 5 .relief .waiting)
     ((t.aduAt 0).admitted, t.overdraftCount 0, (t.gpm.gate 0).divisor)) = ([0], 1, 31) := by decide +kernel

/-- Section 6.15, event 5: the debounce expiry opens an episode, and step 0 of the factory program admits. -/
theorem test_debounce_opens :
    (let t := after (.debounceExpiry 0) (demo 50 .watch .seen)
     ((t.prcAt 0).state, (t.prcAt 0).episode.number, (t.prcAt 0).guard, (t.aduAt 0).admitted))
      = (.relief, 2, .running 50 2000, [0]) := by decide +kernel

/-- Section 6.16, case C: the stale expiry ends the drain phase. -/
theorem test_stale_in_drain :
    (let t := after (.staleExpiry 0) (demo 100 .drain .released)
     ((t.prcAt 0).state, (t.prcAt 0).cooldown, t.ern.history.map Summary.outcome)) =
      (.cooldown, .running 100 500, [.stale]) := by decide +kernel

/-- Section 6.15, event 11 by guard: step 1 of the factory program has divisor 15 for one gate. -/
theorem test_guard_enters_step_1 :
    (let t := after (.guardExpiry 0) (demo 2000 .relief .admitted)
     ((t.prcAt 0).episode.stepIndex, (t.prcAt 0).guard, (t.gpm.gate 0).divisor)) = (1, .running 2000 4000, 15) := by
  decide +kernel

theorem test_drain_stall :
    (let t := after (.drainExpiry 0) (demo 2000 .drain .released)
     ((t.prcAt 0).state, t.ern.history.map Summary.outcome, t.gpm.frees)) = (.cooldown, [.drainStall], 1) := by
  decide +kernel

/-- A part whose fabric transmitter is busy, so that the FIFO keeps its gates. -/
def laneBusy (s : State) : State := { s with flc := { s.flc with tx := some [] } }

/-- R138, R144: the freed gate joins the tail of the free list, and its FREE order waits in the FIFO. -/
theorem test_end_frees_the_gate :
    (let t := after (.drainExpiry 0) (laneBusy (demo 2000 .drain .released))
     (t.gpm.fifo, t.gpm.free.getLast?, t.gpm.gate 0)) = ([0], some 0, ⟨1, none, .free, 0, .coarse, 0, 0⟩) := by
  decide +kernel

/-- R128: a Hold Pressure in PAUSED bypasses, and the FREE order of the gate waits in the FIFO. -/
theorem test_bypass_frees_the_gate :
    (let t := after (.holdPressure 0 1 7 9000) (laneBusy (demo 5 .paused .waiting))
     (t.aduAt 0, t.gpm.fifo, t.gpm.free.getLast?, (t.prcAt 0).episode.bypassed)) = (⟨[], []⟩, [0], some 0, 1) := by
  decide +kernel

/-- R145, R147: at the guard's end of the last step the gate is OPEN and its order waits in the FIFO. -/
theorem test_release_sends_the_order :
    (let t := after (.guardExpiry 0) (laneBusy ((demo 2000 .relief .waiting).modEpisode 0 fun e => { e with stepIndex := 1 }))
     (t.gpm.fifo, (t.gpm.gate 0).mode, (t.prcAt 0).state)) = ([0], .opened, .drain) := by
  decide +kernel

theorem test_cooldown_ends : ((after (.cooldownExpiry 0) (demo 500 .cooldown .seen)).prcAt 0).state = .idle := by
  decide +kernel

/-- Section 4.7, request 1: the cap 50,000 is stored as 49,984. -/
theorem test_cap_is_rounded :
    replyTo (.setWindow 0 [0, 1, 0x80, 0x00, 15, 1, 1, 2, 0x00, 0x00, 0xC3, 0x50]) up
      = some [0, 0, 1, 0x80, 0x00, 15, 1, 1, 2, 0x00, 0x00, 0xC3, 0x40] := by decide +kernel

/-- Section 4.7, request 2: a base that is not a multiple of 512. -/
theorem test_window_align :
    replyTo (.setWindow 0 [1, 1, 0x81, 0x00, 9, 1, 1, 0, 0x00, 0x00, 0x3E, 0x80]) up = some [8] := by decide +kernel

/-- Section 5.8: with 226 steps in use, 32 more do not fit, and the room is 30. -/
theorem test_no_room :
    replyTo (.writeProgram 0 ([8, 32] ++ (List.replicate 32 Step.factory0.bytes).flatten))
      { up with pgs := ⟨(Vector.ofFn fun i : ProgNo =>
        if i = 0 then [Step.factory0, Step.factory1] else if i.val ≤ 7 then List.replicate 32 Step.factory0 else [])⟩ }
      = some [10, 0, 30] := by decide +kernel

/-- Section 2.8, event 7: T1 = 3,000 up to T15 = 45,000. -/
theorem test_set_levels :
    (after (.setLevels 0 (0 :: (List.range 15).flatMap fun i => be 2 (3000 * (i + 1)))) up).oev.sets[(0 : Fin 4)][14]
      = 45000 := by decide +kernel

theorem test_levels_order : replyTo (.setLevels 0 (0 :: List.replicate 28 1 ++ [0, 1])) up = some [6, 15] := by
  decide +kernel

theorem test_clear_history :
    replyTo (.clearHistory 0 []) (after (.stopRelief 0 [0]) (lineBusy (demo 5 .relief .admitted))) = some [0, 1] := by
  decide +kernel

/-! ### Witnesses of hypotheses: the machine and its reset -/

theorem witness_EmptyQueueStep :
    (up.pending = [] ∧ { up with tmb := ⟨100⟩, flc := { up.flc with idle := .running 0 } }.ownEvent = some .idleIntervalExpiry) ∧
    (State.reset.phase = .running ∧ State.reset.ownEvent = none) ∧
    { up with phase := .held }.phase ≠ .running := by decide +kernel

theorem witness_ResetHoldsThePart :
    { up with phase := .completing }.phase ≠ .running ∧
    Instr.ctlFramingError ∉ [Instr.resetNAssert, .resetNRelease, .deviceResetComplete] := by decide +kernel

theorem witness_ResetDeviceAfterItsReply :
    (Takes up ⟨0x02, 9, []⟩ ∧ up.laneSettled) ∧
    (let s := { up with clc := { Clc.reset with resetAsked := true, tx := some [] } }
     s.phase = .running ∧ s.clc.resetAsked = true ∧ s.clc.replies = [] ∧ s.clc.tx ≠ none) := by dsimp only; and_intros <;> decide +kernel

/-! ### Witnesses: the invariants, on a state with an episode and the step of a waiting command -/

/-- Port 0 in RELIEF with an admitted entry, and a framing error waiting to be taken. -/
def running : State := { demo 5 .relief .admitted with pending := [.ctlFramingError] }

theorem running_steps : ∃ t, step running = .next t := ⟨_, rfl⟩

theorem witness_SettledKept : running.settled ∧ ∃ t, step running = .next t := ⟨by decide +kernel, running_steps⟩

theorem witness_RangesKept : running.rangesOk ∧ ∃ t, step running = .next t :=
  ⟨by unfold State.rangesOk; decide +kernel, running_steps⟩

theorem witness_ListsKept : running.gpm.listsOk ∧ running.rtb.ok ∧ ∃ t, step running = .next t :=
  ⟨(demo_books 5 .relief .admitted rfl).lists, (demo_books 5 .relief .admitted rfl).table, running_steps⟩

theorem witness_PortTimersKept : running.prc.timersOk ∧ ∃ t, step running = .next t :=
  ⟨demo_timers 5 .relief .admitted, running_steps⟩

theorem running_config (p : Port) : (running.prcAt p).config.ok := by
  show ((demo 5 .relief .admitted).prcAt p).config.ok
  rw [demo_prcAt]
  split <;> (unfold PortConfig.ok; decide)

theorem resetSet_ok : levelSetOk Oev.resetSet := by unfold levelSetOk; decide +kernel

theorem reset_programs_ok : Pgs.reset.ok := by
  refine ⟨by decide +kernel, fun q => ?_⟩
  have h : Pgs.reset.programs[q] = if q = 0 then [Step.factory0, Step.factory1] else [] := by
    revert q; decide +kernel
  rw [h]
  split
  · refine ⟨by decide, fun st hs => ?_⟩
    rcases List.mem_cons.mp hs with rfl | hs
    · unfold Step.ok; decide
    · rw [List.mem_singleton.mp hs]; unfold Step.ok; decide
  · exact ⟨by decide, nofun⟩

theorem reset_windows_ok : Cmp.reset.ok := by
  have h : ∀ i : Fin 8, Cmp.reset.windows[i] = Window.reset := by decide +kernel
  refine ⟨by unfold capOk; decide, fun i => ?_, fun i j _ hi => ?_⟩
  · rw [h]; exact ⟨by decide, by unfold capOk; decide⟩
  · rw [h] at hi; cases hi

theorem running_settings : running.settingsOk := by
  refine ⟨running_config, fun i => ?_, reset_windows_ok, reset_programs_ok⟩
  have h : running.oev.sets[i] = Oev.resetSet := by revert i; decide +kernel
  rw [h]; exact resetSet_ok

theorem witness_SettingsKept : running.settingsOk ∧ ∃ t, step running = .next t := ⟨running_settings, running_steps⟩

theorem witness_PendingSetKept :
    (∃ t, step running = .next t) ∧
    { running with ern := { Ern.reset with pendingSet := [⟨.episodeOpen, some 47, 3, 255, 1, 0, 0⟩] } }.ern.pendingOk := by
  refine ⟨running_steps, List.pairwise_singleton _ _, fun n hn => ?_⟩
  rw [List.mem_singleton.mp hn]
  decide

theorem witness_BooksKept : running.booksOk ∧ (∃ t, step running = .next t) ∧ running.settingsOk ∧ running.queuesOk :=
  ⟨booksOk_congr (s := demo 5 .relief .admitted) rfl rfl rfl (fun _ => rfl) (demo_books 5 .relief .admitted rfl), running_steps,
    running_settings, ⟨by decide +kernel, by decide +kernel, by decide +kernel, by decide +kernel⟩⟩

theorem witness_SettingsHaveOneWriter :
    ∃ t, exec .ctlFramingError up = .next t ∧ t.phase = .running ∧ up.phase = .running := ⟨_, rfl, rfl, rfl⟩

/-! ### Witnesses: the control line -/

theorem witness_ControlFrameIsQueued :
    let s := { up with clc := { Clc.reset with requests := List.replicate 3 ⟨0x04, 1, []⟩ } }
    s.phase = .running ∧ s.settled ∧ s.clc.rx = .hunting ∧ s.clc.requests.length < 4 ∧
      (List.replicate 1024 (0xC5 : Byte)).length ≤ 1024 := by dsimp only; and_intros <;> decide +kernel

/-- The control receiver is reading. -/
def reading (bs : List Byte) : State := { up with tmb := ⟨200⟩, clc := { Clc.reset with rx := .reading bs, gap := .running 0 200 } }

theorem witness_LineErrorsAreCounted :
    (up.phase = .running ∧ up.laneSettled) ∧
    ((reading []).clc.rx = .reading [] ∧ (reading []).laneSettled) ∧
    ((reading []).clc.gap = .running 0 200 ∧ 0 + 200 ≤ (reading []).now) ∧
    ((reading [0]).clc.rx = .reading [0] ∧ ¬(2 ≤ (0 : Byte).toNat * 256 + (1 : Byte).toNat)) ∧
    ((reading [4]).clc.rx = .reading [4] ∧ ¬((4 : Byte).toNat * 256 + (3 : Byte).toNat ≤ 1026)) ∧
    (∃ x y : Byte, (reading (ctlCovered 4 1 [] ++ [x])).clc.rx = .reading (ctlCovered 4 1 [] ++ [x]) ∧
      x.toNat * 256 + y.toNat ≠ (crc16 (ctlCovered 4 1 [])).toNat) ∧
    (∃ x y : Byte, x.toNat * 256 + y.toNat = (crc16 (ctlCovered 4 1 [])).toNat ∧
      let s := reading (ctlCovered 4 1 [] ++ [x])
      4 ≤ { s with clc := { s.clc with requests := List.replicate 4 ⟨4, 1, []⟩ } }.clc.requests.length) ∧
    (up.clc.rx = .hunting ∧ up.lineSettled ∧ (0xC4 : Byte) ≠ 0xC5) := by
  refine ⟨by decide +kernel, by decide +kernel, by decide +kernel, by decide +kernel, by decide +kernel,
    ⟨0, 0, by decide +kernel⟩, ⟨(crc16 (ctlCovered 4 1 [])).extractLsb' 8 8, (crc16 (ctlCovered 4 1 [])).extractLsb' 0 8, ?_⟩,
    by and_intros <;> decide +kernel⟩
  decide +kernel

theorem witness_FreeLineSendsRepliesFirst :
    (let s := lineBusy { up with clc := { Clc.reset with replies := [⟨0x84, 1, [0]⟩] } }
     s.phase = .running ∧ s.laneSettled ∧ s.clc.resetAsked = false ∧ s.clc.replies = [⟨0x84, 1, [0]⟩]) ∧
    (let s := lineBusy { up with ern := { Ern.reset with pendingSet := [⟨.linkState, none, 10, 1, 0, 2, 0⟩] } }
     s.phase = .running ∧ s.laneSettled ∧ s.clc.resetAsked = false ∧ s.clc.replies = [] ∧
       selectNotice s.ern.pendingSet = some ⟨.linkState, none, 10, 1, 0, 2, 0⟩) ∧
    (let s := lineBusy up
     s.phase = .running ∧ s.laneSettled ∧ s.clc.resetAsked = false ∧ s.clc.replies = [] ∧ s.ern.pendingSet = []) := by
  dsimp only; and_intros <;> decide +kernel

theorem witness_NoticeSelectionOrder :
    selectNotice [⟨.linkState, none, 4, 1, 0, 2, 0⟩, ⟨.episodeEnd, some 47, 4, 1, 1, 0, 0⟩, ⟨.episodeEnd, some 3, 4, 1, 1, 0, 0⟩]
      = some ⟨.episodeEnd, some 3, 4, 1, 1, 0, 0⟩ := by decide +kernel

theorem witness_OneReplyAndRefusalsChangeNothing :
    requestOf (.getPort 7 [48]) = some ⟨0x21, 7, [48]⟩ ∧ wellFormed (.getPort 7 [48]) = true ∧ Takes up ⟨0x21, 7, [48]⟩ ∧
      up.laneSettled ∧ ¬((0x21 : Byte) = 0x02 ∧ [48] = ([] : List Byte)) := by decide +kernel

theorem witness_UnknownAndFormatRefusals :
    (up.laneSettled ∧ knownKind 0x54 = false ∧ Takes up ⟨0x54, 1, [1]⟩) ∧
    (requestOf (.status 1 [0]) = some ⟨0x03, 1, [0]⟩ ∧ knownKind 0x03 = true ∧ bodyLength 0x03 [0] ≠ some [(0 : Byte)].length ∧
      Takes up ⟨0x03, 1, [0]⟩ ∧ wellFormed (.status 1 [0]) = true) := by decide +kernel

/-! ### Witnesses: the fabric link -/

theorem witness_RecordsReadBack :
    fieldAt [6] 0 1 ∉ [1, 2, 3, 4, 5] ∧
    (fieldAt [3, 48] 0 1 ∈ [1, 2, 3] ∧ 48 ≤ fieldAt [3, 48] 1 1) ∧
    (fieldAt [4, 0, 4, 0] 0 1 ∈ [4, 5] ∧ 1024 ≤ fieldAt [4, 0, 4, 0] 2 2) ∧
    (fieldAt [5, 0, 3, 255, 16] 0 1 ∈ [4, 5] ∧ fieldAt [5, 0, 3, 255, 16] 2 2 < 1024 ∧ 16 ≤ fieldAt [5, 0, 3, 255, 16] 4 1) ∧
    (let l : List Byte := [3, 47, 0, 0, 0, 0, 1, 15, 4, 0]
     fieldAt l 0 1 = 3 ∧ fieldAt l 1 1 < 48 ∧ fieldAt l 6 1 % 2 = 1 ∧ 1024 ≤ fieldAt l 8 2) ∧
    (let l : List Byte := [3, 47, 0, 0, 0, 0, 1, 16, 3, 255]
     fieldAt l 0 1 = 3 ∧ fieldAt l 1 1 < 48 ∧ fieldAt l 6 1 % 2 = 1 ∧ fieldAt l 8 2 < 1024 ∧ 16 ≤ fieldAt l 7 1) := by
  dsimp only; and_intros <;> decide +kernel

theorem witness_FramesAreTakenInUp :
    up.phase = .running ∧ up.settled ∧ up.flc.link = .up ∧ up.flc.rx = .hunting ∧
    (List.replicate 32 (InRecord.sighting 1 47 63 0)).length ≤ 32 ∧
    (let s := { up with flc := { up.flc with errCount := 6 } }
     (1 : BitVec 16) ≠ s.flc.expected ∧ s.flc.errCount + 1 < s.flc.faultLimit ∧ s.flc.faultLimit ≤ 255) ∧
    ((List.replicate 16 (6 : Byte)).length = 16 ∧ readRecord (List.replicate 16 6) = .error .recordKind ∧
      (List.replicate 31 (InRecord.sighting 1 47 63 0)).length + ([] : List InRecord).length < 32) := by
  dsimp only; and_intros <;> first | rfl | decide +kernel

theorem witness_FirstFrameBringsLinkUp :
    (linkIn .syncing).phase = .running ∧ (linkIn .syncing).settled ∧ (linkIn .syncing).flc.link = .syncing ∧
      (linkIn .syncing).flc.rx = .hunting ∧ ([] : List InRecord).length ≤ 32 := by decide +kernel

/-- A frame of one record with sequence 5, cut after its first seven bytes by a sync word. -/
theorem cut_frame_is_malformed :
    MalformedRun ((fabricFrame 5 [List.replicate 16 0]).take 8 ++ [.sync]) (some 5) (.reading []) :=
  .sync 5 [List.replicate 16 0] 7 (by decide) (by decide) (by decide)

theorem witness_FrameDiscardedUnread :
    ((linkIn .faulted).phase = .running ∧ (linkIn .faulted).settled ∧ (linkIn .faulted).flc.rx = .hunting ∧
      (∀ r ∈ [List.replicate 16 (0xFF : Byte)], r.length = 16)) ∧
    ((busyIn .stopping).phase = .running ∧ (busyIn .stopping).settled ∧ (busyIn .stopping).flc.rx = .hunting) ∧
    (MalformedRun [.sync, .data 33] none .hunting ∧
      MalformedRun ((fabricFrame 5 [List.replicate 16 0]).take 8 ++ [.sync]) (some 5) (.reading [])) ∧
    (State.reset.settled ∧ State.reset.flc.link = .down) :=
  ⟨by decide +kernel, by decide +kernel, ⟨.count 33 (by decide), cut_frame_is_malformed⟩, by decide +kernel⟩

theorem witness_MalformedHeaderIsCounted :
    (MalformedRun [.sync, .data 33] none .hunting ∧ MalformedRun [.sync, .data 32, .data 2] none .hunting ∧
      MalformedRun (.sync :: (fabricCovered 5 [] ++ [0, 0, 0, 0]).map .data) (some 5) .hunting ∧
      MalformedRun ((fabricFrame 5 [List.replicate 16 0]).take 8 ++ [.sync]) (some 5) (.reading []) ∧
      MalformedRun ((fabricFrame 5 []).take 4 ++ [.sync]) none (.reading [])) ∧
    ((linkIn .syncing).phase = .running ∧ (linkIn .syncing).settled ∧ (linkIn .syncing).flc.rx = .hunting) ∧
    (up.phase = .running ∧ up.settled ∧ up.flc.rx = .hunting ∧ up.flc.errCount + 1 < up.flc.faultLimit ∧
      up.flc.faultLimit ≤ 255) :=
  ⟨⟨.count 33 (by decide), .version 32 2 (by decide) (by decide),
    .crc 5 [] [0, 0, 0, 0] (by decide) (by decide) (by decide) (by decide +kernel), cut_frame_is_malformed,
    .sync 5 [] 3 (by decide) (by decide) (by decide)⟩, by decide +kernel, by decide +kernel⟩

/-- R6: the sync word that cuts a frame is taken as the start of the next one. -/
theorem test_cut_frame :
    (let t := after (.fabricFrameEvent ((fabricFrame 5 [List.replicate 16 0]).take 8 ++ [.sync])) up
     (t.flc.errCount, t.flc.ctr.malformed, t.flc.rx, t.ern.fault)) =
      (1, 1, .reading [], some ⟨.malformed, 5, 32, 0, 0⟩) := by decide +kernel

theorem witness_LinkFaultTearsDown :
    let s := demo 5 .relief .admitted
    let t : State := { s with flc := { s.flc with errCount := 7 } }
    t.booksOk ∧ t.prc.timersOk ∧ t.phase = .running ∧ t.flc.rx = .hunting ∧ t.flc.link = .up ∧
      t.flc.faultLimit ≤ min 255 (t.flc.errCount + 1) ∧ MalformedRun [.sync, .data 33] none .hunting ∧ t.settled ∧
      (1 : BitVec 16) ≠ t.flc.expected ∧ (List.replicate 32 (List.replicate 16 (0 : Byte))).length ≤ 32 ∧
      ∀ r ∈ List.replicate 32 (List.replicate 16 (0 : Byte)), r.length = 16 :=
  ⟨booksOk_congr (s := demo 5 .relief .admitted) rfl rfl rfl (fun _ => rfl) (demo_books 5 .relief .admitted rfl), demo_timers 5 .relief .admitted,
    rfl, rfl, rfl, by decide, .count 33 (by decide), by decide +kernel, by decide, by decide, by decide +kernel⟩

/-- R5: the frame out of sequence that reaches the fault limit is discarded with its records. -/
theorem test_out_of_sequence_faults :
    (let t := after (.fabricFrameEvent (fabricFrame 9 [recordBytes (.sighting 1 0 0 0)])) (link18 7 2)
     (t.flc.link, t.flc.expected, t.flc.ctr.lost, t.flc.ctr.discarded, t.flc.handed)) = (.faulted, 10, 2, 1, []) := by
  decide +kernel

theorem witness_IdleFrameIsSent :
    (let s := { up with tmb := ⟨100⟩, flc := { up.flc with idle := .running 0 } }
     s.phase = .running ∧ s.settled ∧ 0 + 100 ≤ s.now ∧ s.flc.tx = none ∧ s.flc.link.sendsIdle = true) ∧
    (let s := { up with tmb := ⟨99⟩, flc := { up.flc with idle := .running 0 } }
     s.settled ∧ s.now < 0 + 100) ∧
    (let s := { busyIn .stopping with tmb := ⟨100⟩, flc := { (busyIn .stopping).flc with idle := .running 0 } }
     s.settled ∧ 0 + 100 ≤ s.now ∧ s.flc.link = .stopping) := by dsimp only; and_intros <;> decide +kernel

theorem witness_FreeLaneSendsOrders :
    (let s := { busyIn .up with gpm := { Gpm.reset with fifo := [5] } }
     s.phase = .running ∧ s.lineSettled ∧ s.flc.link ≠ .down ∧ s.gpm.fifo ≠ []) ∧
    (let s := { busyIn .faulted with flc := { (busyIn .faulted).flc with idle := .runOut } }
     s.phase = .running ∧ s.lineSettled ∧ s.gpm.fifo = [] ∧ s.flc.idle = .runOut ∧ s.flc.link.sendsIdle = true) ∧
    (let s := busyIn .up
     s.lineSettled ∧ s.gpm.fifo = [] ∧ s.flc.idle ≠ .runOut ∧ s.flc.link ≠ .stopping) ∧
    (let s := busyIn .stopping
     s.lineSettled ∧ s.gpm.fifo = [] ∧ s.flc.link = .stopping) := by dsimp only; and_intros <;> decide +kernel

theorem witness_OrdersCarryTheRecord :
    { Gpm.reset with fifo := [1023, 0] }.fifo.Nodup ∧ (0 : GateNo) ∈ { Gpm.reset with fifo := [1023, 0] }.fifo.take 32 ∧
      (1 : GateNo) ∉ { Gpm.reset with fifo := [1023, 0] }.fifo.take 32 ∧
      (Gpm.reset.gate 0).divisor ≤ 4095 ∧ (Gpm.reset.gate 0).pendingAdd ≤ 16777215 := by decide +kernel

/-! ### Witnesses: occupancy reports and credit -/

theorem witness_ReportUpdatesOccupancy :
    (levelOf Oev.resetSet 61440 = 15 ∧ levelOf Oev.resetSet 4095 = 0 ∧ Oev.resetSet[(0 : Fin 15)] ≤ 4096) ∧
    (TakesRecord up (.occupancy 47 1 0 0) ∧ up.settled ∧ (up.prcAt 47).state = .disarmed) ∧
    (let s := demo 5 .cooldown .seen
     TakesRecord s (.occupancy 0 1 0 0) ∧ s.settled ∧ (s.prcAt 0).state = .cooldown) ∧
    (let s := (demo 5 .relief .admitted).modOev 0 fun _ => ⟨true, 1, 0, 9, 9, 1, 0, 0⟩
     TakesRecord s (.occupancy 0 1 0 0) ∧ s.settled ∧ ¬(s.oevAt 0).accepts 1 ∧ ¬(s.oevAt 0).accepts 32769 ∧
       (s.oevAt 0).accepts 32768) ∧
    (let s := demo 5 .paused .waiting
     TakesRecord s (.occupancy 0 1 65535 0) ∧ s.settled ∧ (s.oevAt 0).accepts 1 ∧ (s.prcAt 0).state = .paused) ∧
    (let s := demo 5 .drain .released
     TakesRecord s (.occupancy 0 1 12288 0) ∧ s.settled ∧ (s.oevAt 0).accepts 1 ∧ (s.prcAt 0).state = .drain ∧
       (s.prcAt 0).config.ld < levelOf s.oev.sets[(s.prcAt 0).config.levelSet] 12288) := by
  and_intros <;> decide +kernel

theorem witness_ReportsMoveIdleAndWatch :
    (let s := demo 5 .idle .seen
     TakesRecord s (.occupancy 0 1 32768 0) ∧ TakesRecord s (.occupancy 0 1 32767 0) ∧ s.settled ∧
       (s.prcAt 0).timersOk ∧ (s.oevAt 0).accepts 1 ∧ (s.prcAt 0).state = .idle ∧
       (s.prcAt 0).config.lw ≤ levelOf (s.oev.sets[(s.prcAt 0).config.levelSet]) 32768 ∧
       levelOf (s.oev.sets[(s.prcAt 0).config.levelSet]) 32767 < (s.prcAt 0).config.lw) ∧
    (let s := demo 5 .watch .seen
     TakesRecord s (.occupancy 0 1 32768 0) ∧ TakesRecord s (.occupancy 0 1 32767 0) ∧ s.settled ∧
       (s.prcAt 0).timersOk ∧ (s.oevAt 0).accepts 1 ∧ (s.prcAt 0).state = .watch ∧
       (s.prcAt 0).qualified = false) ∧
    (let s := (demo 5 .watch .seen).modPrc 0 fun q => { q with
       qualified := true, debounce := .stopped, config := { q.config with fanIn := 2 } }
     TakesRecord s (.occupancy 0 1 32768 0) ∧ s.settled ∧ (s.prcAt 0).state = .watch ∧ (s.prcAt 0).qualified = true ∧
       s.fanIn 0 < (s.prcAt 0).config.fanIn) := by
  dsimp only
  simp only [demo_prcAt, if_true, portIn_timers, true_and]
  and_intros <;> decide +kernel

/-- Port 0 in RELIEF with a baseline at sequence 1 and drained counter 0. -/
def reliefPort (st : EntryState) : State :=
  (demo 5 .relief st).modOev 0 fun _ => ⟨true, 1, 0, 9, 9, 1, 0, 0⟩

theorem witness_ReportInReliefMakesCredit :
    (let s := reliefPort .seen
     TakesRecord s (.occupancy 0 2 49152 16777215) ∧ s.settled ∧ (s.prcAt 0).state = .relief ∧
     (s.oevAt 0).accepts 2 ∧ (s.oevAt 0).deltaOf 16777215 = 16777215 ∧
     (s.aduAt 0).admitted.filter s.ready = [] ∧ (s.currentStep 0).kind = .level ∧ (s.currentStep 0).budget = 0 ∧
     levelOf (s.oev.sets[(s.prcAt 0).config.levelSet]) 49152 = 12 ∧ (s.currentStep 0).lt < 12 ∧ 12 < (s.currentStep 0).lc ∧
     (s.cruAt 0).a + 16777215 * (s.currentStep 0).fa / (s.currentStep 0).fb ≤ 16777215) ∧
    (let s := reliefPort .admitted
     TakesRecord s (.occupancy 0 2 0 0) ∧ s.booksOk ∧ (s.prcAt 0).timersOk ∧ (s.prcAt 0).state = .relief ∧
     (s.oevAt 0).accepts 2 ∧ (s.currentStep 0).kind = .level ∧
     levelOf (s.oev.sets[(s.prcAt 0).config.levelSet]) 0 ≤ (s.currentStep 0).lt) := by
  have a : (reliefPort .admitted).booksOk :=
    booksOk_congr (s := demo 5 .relief .admitted) rfl rfl rfl (fun _ => rfl) (demo_books 5 .relief .admitted rfl)
  have b : ((reliefPort .admitted).prcAt 0).timersOk := portIn_timers .relief
  dsimp only
  simp only [a, b, true_and]
  and_intros <;> decide +kernel

/-- R115: at a report that meets the condition the step ends, credited and distributed once more, without the guard. -/
theorem test_condition_ends_the_step :
    (let t := after (.occupancyReport 0 2 0 30000) (reliefPort .admitted)
     ((t.prcAt 0).episode.stepIndex, (t.prcAt 0).episode.stepsByGuard, (t.prcAt 0).guard, (t.cruAt 0).s)) =
      (1, 0, .running 5 4000, 0) := by decide +kernel

theorem witness_PoolSaturatesAndIsShared :
    (up.cruAt 0).a + 16777215 ≤ 16777215 ∧ 16777215 < (up.cruAt 0).a + 16777216 ∧
    (let s := (demo 5 .relief .admitted).modCru 0 fun _ => ⟨1087, 0⟩
     s.ready 0 = true ∧ 1024 ≤ (s.cruAt 0).a / ((s.aduAt 0).admitted.filter s.ready).length / 64 * 64 ∧ s.booksOk ∧
       s.rtb.entry? 0 = some (entryIn .admitted) ∧ (entryIn .admitted).cap ≠ 0) ∧
    (let s := (demo 5 .relief .admitted).modCru 0 fun _ => ⟨1023, 0⟩
     (s.cruAt 0).a / ((s.aduAt 0).admitted.filter s.ready).length / 64 * 64 < 1024) := by
  have a := booksOk_congr (s := demo 5 .relief .admitted)
    (t := (demo 5 .relief .admitted).modCru 0 fun _ => ⟨1087, 0⟩)
    rfl rfl rfl (fun _ => rfl) (demo_books 5 .relief .admitted rfl)
  dsimp only
  simp only [a, true_and]
  and_intros <;> decide +kernel

/-- R161: the grant of 1,024 bytes leaves the pool, clears dry, and waits for its order. -/
theorem test_grant :
    (let t := distribute 0 ((demo 5 .relief .admitted).modCru 0 fun _ => ⟨1087, 0⟩)
     ((t.cruAt 0).a, (t.gpm.gate 0).pendingAdd, t.gpm.fifo, (t.rtb.entry? 0).map fun e => (e.dry, e.granted))) =
      (63, 1024, [0], some (some false, 1024)) := by decide +kernel

/-! ### Witnesses: the Responder Table -/

theorem below_one (j : Slot) (h : j < 1) : j = 0 :=
  Fin.ext (by have := Fin.lt_def.mp h; change j.val < 1 at this; change j.val = 0; omega)

theorem witness_SightingRefreshesOrCreates :
    let s := demo 5 .idle .seen
    (TakesRecord s (.sighting 7 0 3 443) ∧ s.settled ∧ s.rtb.lookup 7 0 = some (0, entryIn .seen)) ∧
    TakesRecord s (.sighting 8 0 3 443) ∧ s.rtb.lookup 8 0 = none ∧ s.rtb.table.length < 2048 ∧
      s.rtb.entry? 1 = none ∧ (∀ j : Slot, j < 1 → s.rtb.entry? j ≠ none) ∧
      (s.prcAt 0).state = .idle ∧ s.cmp.Decides 443 8 s.cmp.dflt ∧
    (let t := { s with cmp := { s.cmp with windows := s.cmp.windows.set 7 ⟨true, 443, 0, .pinned, ⟨true, 0, 1024⟩, 0⟩ } }
     t.cmp.Decides 443 7 ⟨true, 0, 1024⟩) := by
  dsimp only
  refine ⟨?_, by decide +kernel, by decide +kernel, by decide +kernel, by decide +kernel, fun j hj => ?_, by decide +kernel,
    .inr (by decide +kernel), .inl ⟨7, by decide +kernel⟩⟩
  · and_intros <;> decide +kernel
  · rw [below_one j hj]; decide +kernel

/-- A Sighting of hash 9 on port 0 is an arrival in PAUSED behind a waiting entry, and in RELIEF below and at W. -/
theorem witness_SightingArrives :
    (let s := demo 5 .paused .waiting
     TakesRecord s (.sighting 9 0 3 443) ∧ s.rtb.lookup 9 0 = none ∧ s.rtb.entry? 1 = none ∧ s.booksOk ∧
       s.cmp.Decides 443 8 s.cmp.dflt ∧ s.cmp.dflt.eligible = true ∧ (s.prcAt 0).state = .paused ∧
       (s.aduAt 0).waitQ.length < 256 ∧ s.gpm.free ≠ [] ∧ s.queuesOk) ∧
    (let s := demo 5 .relief .admitted
     TakesRecord s (.sighting 9 0 3 443) ∧ s.rtb.lookup 9 0 = none ∧ s.rtb.entry? 1 = none ∧ s.booksOk ∧
       (s.prcAt 0).state = .relief ∧ s.admittedCount 0 < (s.currentStep 0).width ∧ (s.aduAt 0).waitQ = [] ∧ s.gpm.free ≠ []) ∧
    (let s := { demo 5 .relief .admitted with pgs := ⟨Vector.replicate 16 [{ Step.factory0 with width := 1 }]⟩ }
     TakesRecord s (.sighting 9 0 3 443) ∧ s.booksOk ∧ (s.currentStep 0).width = s.admittedCount 0) := by
  have a := demo_books 5 .paused .waiting rfl
  have b := demo_books 5 .relief .admitted rfl
  have c : (demo 5 .paused .waiting).cmp.Decides 443 8 (demo 5 .paused .waiting).cmp.dflt := .inr (by decide +kernel)
  have e : (demo 5 .paused .waiting).queuesOk :=
    ⟨by decide +kernel, by decide +kernel, by decide +kernel, by decide +kernel⟩
  have d := booksOk_congr (s := demo 5 .relief .admitted)
    (t := { demo 5 .relief .admitted with pgs := ⟨Vector.replicate 16 [{ Step.factory0 with width := 1 }]⟩ })
    rfl rfl rfl (fun _ => rfl) b
  dsimp only
  simp only [a, b, c, d, e, true_and, and_true]
  and_intros <;> decide +kernel

/-! A port with every gate lent: 1,024 entries of port 1 that all wait, or are all RELEASED. -/

/-- The entry of port 1 that holds a gate. -/
def heldIn (st : EntryState) (g : GateNo) : Entry :=
  { entryIn st with hash := BitVec.ofNat 32 g.val, port := 1, gate := some ⟨g, 1⟩ }

/-- The slot of that entry. -/
def slotOf (g : GateNo) : Slot := ⟨g.val, by omega⟩

/-- Port 1 in a state with its 1,024 entries, and port 0 in PAUSED. -/
def allLent (ps : PortState) (st : EntryState) : State := { up with
  prc := ⟨(Prc.reset.port.set 0 (portIn .paused)).set 1 (portIn ps), 2⟩
  rtb := { Rtb.reset with
    table := (List.finRange 1024).map fun g => (slotOf g, heldIn st g)
    arrival := Rtb.reset.arrival.set 1 ((List.finRange 1024).map slotOf) }
  gpm := { Gpm.reset with
    gates := Vector.ofFn fun g => ⟨1, some ⟨BitVec.ofNat 32 g.val, 1⟩, st.mode, 0, .coarse, 0, 0⟩
    free := [] }
  adu := { Adu.reset with port := Adu.reset.port.set 1 ⟨if st = .waiting then (List.finRange 1024).map slotOf else [], []⟩ } }

theorem slotOf_injective : Function.Injective slotOf := fun _ _ h => Fin.ext (Fin.mk.inj h)

theorem slots_nodup : ((List.finRange 1024).map slotOf).Nodup := (List.nodup_finRange _).map slotOf_injective

theorem allLent_entry? (ps : PortState) (st : EntryState) (i : Slot) (e : Entry) :
    (allLent ps st).rtb.entry? i = some e ↔ ∃ g, i = slotOf g ∧ e = heldIn st g := by
  have h : (allLent ps st).rtb.entry? i =
      ((List.finRange 1024).find? fun g => slotOf g == i).map (heldIn st) := by
    simp only [Rtb.entry?, allLent, List.find?_map, Option.map_map]
    rfl
  rw [h]
  cases q : (List.finRange 1024).find? fun g => slotOf g == i with
  | none =>
    have := fun g => List.find?_eq_none.1 q g (List.mem_finRange g)
    refine ⟨nofun, fun ⟨g, a, _⟩ => absurd (this g) (by simp [a])⟩
  | some g =>
    have r : slotOf g = i := by simpa using List.find?_some q
    refine ⟨fun x => ⟨g, r.symm, by simpa using x.symm⟩, fun ⟨k, a, b⟩ => ?_⟩
    rw [b, slotOf_injective (r.trans a)]; rfl

theorem allLent_gate (ps : PortState) (st : EntryState) (g : GateNo) :
    (allLent ps st).gpm.gate g = ⟨1, some ⟨BitVec.ofNat 32 g.val, 1⟩, st.mode, 0, .coarse, 0, 0⟩ := by
  show (Vector.ofFn _)[g.val] = _
  simp

theorem allLent_books (ps : PortState) (st : EntryState) (hs : st = .waiting ∨ st = .released)
    (h : st.occursIn ps = true) : (allLent ps st).booksOk where
  table := by
    refine ⟨?_, fun p => ?_⟩
    · simp only [allLent, List.pairwise_map]
      refine (List.pairwise_lt_finRange 1024).imp fun {a b} h => ⟨h, fun e => ?_⟩
      have := congrArg BitVec.toNat e.1
      simp only [heldIn, BitVec.toNat_ofNat] at this
      have h : a.val < b.val := h
      omega
    · have q : (allLent ps st).rtb.arrival[p] = if p = 1 then (List.finRange 1024).map slotOf else [] := by
        show (Rtb.reset.arrival.set 1 _)[p.val] = _
        simp only [Vector.getElem_set, show (1 = p.val) = (p = 1) from propext ⟨fun x => Fin.ext x.symm, fun x => by rw [x]; rfl⟩]
        split <;> simp [Rtb.reset]
      rw [q]
      simp only [allLent_entry?]
      split <;> rename_i h
      · exact ⟨slots_nodup, fun i => ⟨fun m => by
          obtain ⟨g, _, rfl⟩ := List.mem_map.1 m
          exact ⟨_, ⟨g, rfl, rfl⟩, h.symm⟩, fun ⟨_, ⟨g, a, _⟩, _⟩ => a ▸ List.mem_map_of_mem (List.mem_finRange g)⟩⟩
      · exact ⟨List.nodup_nil, fun i => ⟨nofun, fun ⟨e, ⟨g, _, a⟩, b⟩ => absurd (b.symm.trans (a ▸ rfl)) h⟩⟩
  lists := by
    refine ⟨List.nodup_nil, List.nodup_nil, fun g => ?_⟩
    rw [allLent_gate]
    exact ⟨nofun, nofun⟩
  entries i e he := by
    obtain ⟨g, rfl, rfl⟩ := (allLent_entry? ..).1 he
    have p : ((allLent ps st).prcAt 1).state = ps := rfl
    refine ⟨?_, p ▸ h⟩
    rcases hs with rfl | rfl <;> exact ⟨iff_of_true rfl rfl, iff_of_false nofun nofun, iff_of_false nofun nofun, fun _ => rfl⟩
  held i e r he hr := by
    obtain ⟨g, rfl, rfl⟩ := (allLent_entry? ..).1 he
    cases hr
    rw [allLent_gate]
    exact ⟨rfl, rfl, rfl⟩
  bound g k hk := by
    rw [allLent_gate] at hk
    cases hk
    exact ⟨slotOf g, heldIn st g, ⟨g, 1⟩, (allLent_entry? ..).2 ⟨g, rfl, rfl⟩, rfl, rfl, rfl, rfl⟩
  unbound g hb := by rw [allLent_gate] at hb; cases hb
  waiting p := by
    have q : ((allLent ps st).aduAt p).waitQ = if p = 1 ∧ st = .waiting then (List.finRange 1024).map slotOf else [] := by
      show ((Adu.reset.port.set 1 _)[p.val]).waitQ = _
      simp only [Vector.getElem_set, show (1 = p.val) = (p = 1) from propext ⟨fun x => Fin.ext x.symm, fun x => by rw [x]; rfl⟩]
      by_cases a : p = 1 <;> simp [a, Adu.reset]
    rw [q]
    simp only [allLent_entry?]
    split <;> rename_i h
    · exact ⟨slots_nodup, fun i => ⟨fun m => by
        obtain ⟨g, _, rfl⟩ := List.mem_map.1 m
        exact ⟨_, ⟨g, rfl, rfl⟩, h.1.symm, h.2⟩, fun ⟨_, ⟨g, a, _⟩, _⟩ => a ▸ List.mem_map_of_mem (List.mem_finRange g)⟩⟩
    · refine ⟨List.nodup_nil, fun i => ⟨nofun, fun ⟨e, ⟨g, _, a⟩, b, c⟩ => absurd ?_ h⟩⟩
      subst a
      exact ⟨b.symm, c⟩
  admitted p := by
    have q : ((allLent ps st).aduAt p).admitted = [] := by
      show ((Adu.reset.port.set 1 _)[p.val]).admitted = _
      simp only [Vector.getElem_set]
      split <;> simp [Adu.reset]
    rw [q]
    simp only [allLent_entry?]
    refine ⟨List.nodup_nil, fun i => ⟨nofun, fun ⟨e, ⟨g, _, a⟩, _, c⟩ => ?_⟩⟩
    subst a
    rcases hs with rfl | rfl <;> cases c

/-- An arrival at a wait queue with 256 members or more, and an arrival when no gate is free. -/
theorem witness_SightingWithoutPlace :
    (let s := allLent .paused .waiting
     TakesRecord s (.sighting 5000 1 3 443) ∧ s.booksOk ∧ s.rtb.lookup 5000 1 = none ∧ s.rtb.table.length < 2048 ∧
       s.cmp.Decides 443 8 s.cmp.dflt ∧ (s.prcAt 1).state = .paused ∧ 256 ≤ (s.aduAt 1).waitQ.length) ∧
    (let s := allLent .drain .released
     TakesRecord s (.sighting 5000 0 3 443) ∧ s.booksOk ∧ s.rtb.lookup 5000 0 = none ∧ s.rtb.table.length < 2048 ∧
       (s.prcAt 0).state = .paused ∧ (s.aduAt 0).waitQ = [] ∧ s.gpm.free = []) := by
  have a := allLent_books .paused .waiting (.inl rfl) rfl
  have b := allLent_books .drain .released (.inr rfl) rfl
  have c : (allLent .paused .waiting).cmp.Decides 443 8 (allLent .paused .waiting).cmp.dflt := .inr (by decide +kernel)
  dsimp only
  simp only [a, b, c, true_and]
  and_intros <;> decide +kernel

/-- A table of 2,048 BYPASSED entries of port 1. -/
def fullTable : State := { up with rtb := { Rtb.reset with
  table := (List.finRange 2048).map fun i => (i, { entryIn .bypassed with hash := BitVec.ofNat 32 i.val, port := 1 }) } }

/-- The SEEN entry of port 1 in a slot of `seenTable`. -/
def seenIn (i : Slot) : Entry := { entryIn .seen with hash := BitVec.ofNat 32 i.val, port := 1 }

/-- A table of SEEN entries of port 1 in these slots. -/
def seenIns (l : List Slot) : State := { up with rtb := { Rtb.reset with
  table := l.map fun i => (i, seenIn i)
  arrival := (Vector.replicate 48 []).set 1 l } }

theorem seenIns_entry (l : List Slot) (i : Slot) (m : i ∈ l) : (seenIns l).rtb.entry? i = some (seenIn i) := by
  have h : l.find? ((fun x : Slot × Entry => x.1 == i) ∘ fun j => (j, seenIn j)) = some i := by
    rw [show ((fun x : Slot × Entry => x.1 == i) ∘ fun j => (j, seenIn j)) = fun j => j == i from rfl]
    cases h : l.find? fun j => j == i with
    | none => exact absurd m fun m => by simpa using List.find?_eq_none.1 h i m
    | some j => have := List.find?_some h; simp_all
  simp only [Rtb.entry?, seenIns, List.find?_map, h, Option.map_some]

theorem seenIns_ok (l : List Slot) (r : l.Pairwise (· < ·)) (m : ∀ i, i ∈ l) : (seenIns l).rtb.ok := by
  refine ⟨?_, fun p => ?_⟩
  · refine List.pairwise_map.2 (r.imp fun {a b} h => ⟨h, fun e => ?_⟩)
    have h : a.val < b.val := h
    have := congrArg BitVec.toNat e.1
    simp only [seenIn, BitVec.toNat_ofNat] at this
    omega
  · have h : (p = 1) = (1 = p.val) := by simp only [Fin.ext_iff]; exact propext ⟨Eq.symm, Eq.symm⟩
    have q : (seenIns l).rtb.arrival[p] = if p = 1 then l else [] := by
      simp only [seenIns, Fin.getElem_fin, Vector.getElem_set, Vector.getElem_replicate, h]
    rw [q]
    simp only [seenIns_entry l _ (m _), Option.some.injEq]
    split <;> rename_i h
    · exact ⟨r.imp fun h => Fin.ne_of_lt h, fun i => by simp [h, seenIn, m]⟩
    · exact ⟨List.nodup_nil, fun i => by simp [seenIn, Ne.symm h]⟩

/-- A table of 2,048 SEEN entries of port 1. -/
def seenTable : State := seenIns (List.finRange 2048)

theorem seenTable_ok : seenTable.rtb.ok := seenIns_ok _ (List.pairwise_lt_finRange 2048) List.mem_finRange

theorem witness_FullTableEvictsOrLoses :
    oldestSeen 20 [(3, entryIn .seen), (9, entryIn .seen)] = some (3, entryIn .seen) ∧
    (TakesRecord seenTable (.sighting 2048 1 0 0) ∧ seenTable.settled ∧ seenTable.rtb.ok ∧
      seenTable.rtb.lookup 2048 1 = none ∧ 2048 ≤ seenTable.rtb.table.length ∧
      oldestSeen seenTable.now seenTable.rtb.table = some (0, seenIn 0) ∧
      (seenTable.prcAt 1).state.hasEpisode = false ∧ (seenTable.prcAt 1).qualified = false) ∧
    TakesRecord fullTable (.sighting 2048 1 0 0) ∧ fullTable.laneSettled ∧ fullTable.rtb.lookup 2048 1 = none ∧
      2048 ≤ fullTable.rtb.table.length ∧ fullTable.rtb.table.all (fun x => x.2.state != .seen) = true := by
  simp only [seenTable_ok, true_and]
  and_intros <;> decide +kernel

theorem witness_FlowEndWithoutGate :
    (let s := demo 5 .idle .seen
     TakesRecord s (.flowEnd 8 0 none 0) ∧ s.settled ∧ s.rtb.lookup 8 0 = none) ∧
    (let s := demo 5 .relief .bypassed
     TakesRecord s (.flowEnd 7 0 none 0) ∧ s.settled ∧ s.rtb.ok ∧ s.rtb.lookup 7 0 = some (0, entryIn .bypassed) ∧
       (entryIn .bypassed).gate = none) := by
  refine ⟨?_, ?_, ?_, (demo_books 5 .relief .bypassed rfl).table, ?_, ?_⟩ <;> decide +kernel

theorem witness_FlowEndOfAdmitted :
    (let s := (demo 5 .paused .admitted).modCru 0 fun _ => ⟨1, 0⟩
     TakesRecord s (.flowEnd 7 0 (some ⟨0, 1⟩) 16777215) ∧ s.booksOk ∧ s.rtb.lookup 7 0 = some (0, entryIn .admitted) ∧
       16777215 < (s.cruAt 0).a + (16777215 : BitVec 24).toNat) ∧
    (let s := demo 5 .paused .admitted
     TakesRecord s (.flowEnd 7 0 (some ⟨0, 1⟩) 16777215) ∧ TakesRecord s (.flowEnd 7 0 (some ⟨0, 2⟩) 1) ∧ s.booksOk ∧
       s.rtb.lookup 7 0 = some (0, entryIn .admitted) ∧ (entryIn .admitted).gate = some ⟨0, 1⟩) ∧
    (let s := demo 5 .relief .waiting
     TakesRecord s (.flowEnd 7 0 none 0) ∧ s.booksOk ∧ s.rtb.lookup 7 0 = some (0, entryIn .waiting) ∧
       (entryIn .waiting).gate = some ⟨0, 1⟩) ∧
    (let s := demo 5 .drain .released
     TakesRecord s (.flowEnd 7 0 none 0) ∧ s.booksOk ∧ s.rtb.lookup 7 0 = some (0, entryIn .released) ∧
       (entryIn .released).gate = some ⟨0, 1⟩) :=
  ⟨⟨by decide +kernel, booksOk_congr (s := demo 5 .paused .admitted) rfl rfl rfl (fun _ => rfl)
      (demo_books 5 .paused .admitted rfl), by decide +kernel, by decide +kernel⟩,
    ⟨by decide +kernel, by decide +kernel, demo_books 5 .paused .admitted rfl, by decide +kernel, by decide⟩,
    ⟨by decide +kernel, demo_books 5 .relief .waiting rfl, by decide +kernel, by decide⟩,
    by decide +kernel, demo_books 5 .drain .released rfl, by decide +kernel, by decide⟩

theorem witness_AgingRemovesMatured :
    (let s := demo 20000 .idle .seen
     s.phase = .running ∧ s.settled ∧ s.rtb.entry? 0 = some (entryIn .seen) ∧ s.rtb.ageLimit ≤ 2147483647 ∧
       s.rtb.ageLimit ≤ s.now - (entryIn .seen).lastActivity) ∧
    (let s := demo 19999 .idle .seen
     s.settled ∧ s.now - (entryIn .seen).lastActivity < s.rtb.ageLimit) ∧
    (demo 20000 .relief .waiting).rtb.entry? 0 = some (entryIn .waiting) := by
  dsimp only; and_intros <;> decide +kernel

/-! ### Witnesses: gates -/

theorem witness_GatesAreLentFromTheHead :
    (let s := demo 5 .relief .seen
     s.rtb.entry? 0 = some (entryIn .seen) ∧ ∃ rest, s.gpm.free = 0 :: rest) ∧
    (let s := { demo 5 .relief .seen with gpm := { Gpm.reset with free := [] } }
     s.rtb.entry? 0 = some (entryIn .seen) ∧ s.gpm.free = []) ∧
    (let s := demo 5 .relief .waiting
     s.rtb.entry? 0 = some (entryIn .waiting) ∧ (entryIn .waiting).gate = some ⟨0, 1⟩ ∧
       (s.gpm.gate 0).bound = some ⟨7, 0⟩) := by
  refine ⟨⟨by decide +kernel, (List.finRange 1023).map Fin.succ, by decide +kernel⟩, ?_⟩
  dsimp only; and_intros <;> decide +kernel

theorem witness_GateReportsAreChecked :
    (let s := demo 5 .relief .admitted
     TakesRecord s (.holdPressure 0 1 7 9) ∧ s.settled ∧ (s.gpm.gate 0).bound = some ⟨7, 0⟩ ∧ (s.gpm.gate 0).epoch = 1 ∧
       s.rtb.lookup 7 0 = some (0, entryIn .admitted) ∧ s.rtb.ok ∧ (s.gpm.gate 1023).bound = none ∧
       TakesRecord s (.gateSpent 0 1 0 7) ∧ (s.gpm.gate 0).lastAdd = 0 ∧ (s.gpm.gate 0).pendingAdd = 0 ∧
       TakesRecord s (.gateSpent 0 1 1 7) ∧ (s.gpm.gate 0).lastAdd ≠ 1) ∧
    (let s := demo 5 .drain .released
     TakesRecord s (.gateSpent 0 1 0 7) ∧ s.settled ∧ (s.gpm.gate 0).bound = some ⟨7, 0⟩ ∧
       s.rtb.lookup 7 0 = some (0, entryIn .released) ∧ s.rtb.ok) := by
  have a := (demo_books 5 .relief .admitted rfl).table
  have b := (demo_books 5 .drain .released rfl).table
  dsimp only
  simp only [a, b, true_and, and_true]
  and_intros <;> decide +kernel

theorem witness_HoldPressureOnWaiting :
    (let s := demo 5 .relief .waiting
     TakesRecord s (.holdPressure 0 1 7 9) ∧ s.booksOk ∧ (s.gpm.gate 0).bound = some ⟨7, 0⟩ ∧ (s.gpm.gate 0).epoch = 1 ∧
       s.rtb.lookup 7 0 = some (0, entryIn .waiting) ∧ (s.prcAt 0).state = .relief ∧ s.overdraftCount 0 < 8) ∧
    (let s := demo 5 .paused .waiting
     TakesRecord s (.holdPressure 0 1 7 9) ∧ s.booksOk ∧ (s.gpm.gate 0).bound = some ⟨7, 0⟩ ∧
       s.rtb.lookup 7 0 = some (0, entryIn .waiting) ∧ (s.prcAt 0).state ≠ .relief) := by
  have a := demo_books 5 .relief .waiting rfl
  have b := demo_books 5 .paused .waiting rfl
  dsimp only
  simp only [a, b, true_and]
  and_intros <;> decide +kernel

theorem witness_GatesShareTheAggregate : 4095 ≤ 4095 ∧ 1 ≤ 1 ∧ (4095 + 1) * 1 ≤ 4096 ∧ 4096 ≤ (4095 + 1) * 1 := by decide

/-! ### Witnesses: the relief cycle -/

theorem witness_TimersMoveThePort :
    (let s := (demo 50 .watch .seen).modPrc 0 fun q => { q with config := { q.config with fanIn := 2 } }
     s.phase = .running ∧ s.settled ∧ (s.prcAt 0).state = .watch ∧ (s.prcAt 0).debounce = .running 0 50 ∧ 0 + 50 ≤ s.now ∧
       s.fanIn 0 < (s.prcAt 0).config.fanIn) ∧
    (let s := demo 100 .watch .seen
     s.settled ∧ (s.prcAt 0).timersOk ∧ (s.prcAt 0).stale = .running 0 100 ∧ 0 + 100 ≤ s.now) ∧
    (let s := demo 500 .cooldown .seen
     s.settled ∧ (s.prcAt 0).timersOk ∧ (s.prcAt 0).cooldown = .running 0 500 ∧ 0 + 500 ≤ s.now) ∧
    (let s := demo 49 .watch .seen
     s.settled ∧ (s.prcAt 0).timersOk ∧ (s.prcAt 0).debounce = .running 0 50 ∧ s.now < 0 + 50 ∧
       (s.prcAt 0).guard = .stopped ∧ (s.prcAt 0).drain = .stopped ∧ (s.prcAt 0).cooldown = .stopped) := by
  dsimp only
  simp only [demo_prcAt, if_true, portIn_timers, true_and]
  and_intros <;> decide +kernel

theorem witness_EpisodeOpens :
    (let s := demo 50 .watch .seen
     s.phase = .running ∧ s.booksOk ∧ (s.prcAt 0).timersOk ∧ (s.prcAt 0).state = .watch ∧
       (s.prcAt 0).debounce = .running 0 50 ∧ 0 + 50 ≤ s.now ∧ (s.prcAt 0).config.fanIn ≤ s.fanIn 0 ∧
       s.pgs.programs[(s.prcAt 0).config.program] ≠ []) ∧
    (let s := (demo 60 .watch .seen).modPrc 0 fun q => { q with qualified := true, debounce := .stopped }
     TakesRecord s (.occupancy 0 1 32768 0) ∧ (s.oevAt 0).accepts 1 ∧ (s.prcAt 0).state = .watch ∧
       (s.prcAt 0).qualified = true ∧
       (s.prcAt 0).config.lw ≤ levelOf s.oev.sets[(s.prcAt 0).config.levelSet] 32768 ∧
       (s.prcAt 0).config.fanIn ≤ s.fanIn 0) ∧
    (let s := (demo 60 .watch .seen).modPrc 0 fun q => { q with
       qualified := true, debounce := .stopped, config := { q.config with fanIn := 2 } }
     s.booksOk ∧ (s.prcAt 0).timersOk ∧ TakesRecord s (.sighting 8 0 3 443) ∧ s.rtb.lookup 8 0 = none ∧
       s.rtb.table.length < 2048 ∧ s.rtb.entry? 1 = none ∧ s.rtb.entry? 0 ≠ none ∧
       s.cmp.Decides 443 8 s.cmp.dflt ∧ s.cmp.dflt.eligible = true ∧ (s.prcAt 0).state = .watch ∧
       (s.prcAt 0).qualified = true ∧ (s.prcAt 0).config.fanIn = s.fanIn 0 + 1 ∧
       s.pgs.programs[(s.prcAt 0).config.program] ≠ []) ∧
    (let s := demo 5 .cooldown .seen
     s.booksOk ∧ (s.prcAt 0).timersOk ∧ Takes s ⟨0x24, 1, [0, 0]⟩ ∧ (s.prcAt 0).state = .cooldown ∧
       s.pgs.programs[(0 : ProgNo)] ≠ []) := by
  have a := demo_books 50 .watch .seen rfl
  have b := demo_books 5 .cooldown .seen rfl
  let q := (demo 60 .watch .seen).modPrc 0 fun q => { q with
    qualified := true, debounce := .stopped, config := { q.config with fanIn := 2 } }
  have c : q.booksOk := booksOk_congr (s := demo 60 .watch .seen) rfl rfl rfl
    (show ∀ p, (q.prcAt p).state = ((demo 60 .watch .seen).prcAt p).state by decide +kernel)
    (demo_books 60 .watch .seen rfl)
  have d : q.prcAt 0 = { portIn .watch with
      qualified := true, debounce := .stopped, config := { (portIn .watch).config with fanIn := 2 } } := by decide +kernel
  have e : (q.prcAt 0).timersOk := by
    rw [d]
    simp [PrcPort.timersOk, portIn, Timer.active, PortState.runsStale, PortState.runsGuard, PortState.hasEpisode,
      PrcPort.reset]
  have f : q.cmp.Decides 443 8 q.cmp.dflt := .inr (by decide +kernel)
  dsimp only [q] at c e f ⊢
  simp only [a, b, c, e, f, demo_prcAt, if_true, portIn_timers, true_and]
  and_intros <;> decide +kernel

theorem witness_EpisodeEnds :
    (let s := demo 100 .relief .admitted
     s.phase = .running ∧ s.booksOk ∧ (s.prcAt 0).timersOk ∧ (s.prcAt 0).state.hasEpisode = true ∧
       (s.prcAt 0).stale = .running 0 100 ∧ 0 + 100 ≤ s.now ∧ Takes s ⟨0x25, 1, [0]⟩ ∧ Takes s ⟨0x23, 1, [0]⟩) ∧
    (let s := demo 2000 .drain .released
     s.booksOk ∧ (s.prcAt 0).timersOk ∧ (s.prcAt 0).drain = .running 0 2000 ∧ 0 + 2000 ≤ s.now ∧
       (s.prcAt 0).config.stall = .cooldown ∧ (s.prcAt 0).config.tc ≠ 0 ∧ (s.prcAt 0).standby = none ∧ TakesRecord s (.occupancy 0 1 8192 0) ∧
       (s.oevAt 0).accepts 1 ∧ levelOf s.oev.sets[(s.prcAt 0).config.levelSet] 8192 = (s.prcAt 0).config.ld) ∧
    (let s := (demo 2000 .drain .released).modPrc 0 fun q => { q with config := { q.config with stall := .disarm } }
     (s.prcAt 0).drain = .running 0 2000 ∧ (s.prcAt 0).config.stall = .disarm) := by
  have a := demo_books 100 .relief .admitted rfl
  have b := demo_books 2000 .drain .released rfl
  dsimp only
  simp only [a, b, demo_prcAt, if_true, portIn_timers, true_and]
  and_intros <;> decide +kernel

theorem witness_StandbyStartsAfterTheEnd :
    let s := (demo 2000 .drain .released).modPrc 0 fun q => { q with standby := some 0 }
    s.phase = .running ∧ s.booksOk ∧ (s.prcAt 0).timersOk ∧ (s.prcAt 0).state = .drain ∧ (s.prcAt 0).standby = some 0 ∧
      (s.prcAt 0).drain = .running 0 2000 ∧ 0 + 2000 ≤ s.now ∧ (s.prcAt 0).config.stall = .cooldown ∧
      TakesRecord s (.occupancy 0 1 8192 0) ∧ (s.oevAt 0).accepts 1 ∧
      levelOf s.oev.sets[(s.prcAt 0).config.levelSet] 8192 ≤ (s.prcAt 0).config.ld := by
  have p : ∀ p : Port, (((demo 2000 .drain .released).modPrc 0 fun q => { q with standby := some 0 }).prcAt p).state =
      ((demo 2000 .drain .released).prcAt p).state := by decide +kernel
  have a := booksOk_congr (s := demo 2000 .drain .released)
    (t := (demo 2000 .drain .released).modPrc 0 fun q => { q with standby := some 0 })
    rfl rfl rfl p (demo_books 2000 .drain .released rfl)
  have q : ((demo 2000 .drain .released).modPrc 0 fun q => { q with standby := some 0 }).prcAt 0 =
      { portIn .drain with standby := some 0 } := by decide +kernel
  dsimp only
  refine ⟨rfl, a, ?_, ?_⟩
  · rw [q]
    simp [PrcPort.timersOk, portIn, Timer.active, PortState.runsStale, PortState.runsGuard, PortState.hasEpisode,
      PrcPort.reset]
  · and_intros <;> decide +kernel

theorem witness_GuardEndsTheStep :
    (let s := demo 2000 .relief .admitted
     s.phase = .running ∧ s.booksOk ∧ (s.prcAt 0).timersOk ∧ (s.prcAt 0).state = .relief ∧
       (s.prcAt 0).guard = .running 0 2000 ∧ 0 + 2000 ≤ s.now ∧
       (s.prcAt 0).episode.stepIndex + 1 < s.programLength (s.prcAt 0).episode.program) ∧
    (let s := (demo 2000 .relief .waiting).modEpisode 0 fun e => { e with stepIndex := 1 }
     (s.prcAt 0).state = .relief ∧ (s.prcAt 0).guard = .running 0 2000 ∧
       ¬((s.prcAt 0).episode.stepIndex + 1 < s.programLength (s.prcAt 0).episode.program)) := by
  have a := demo_books 2000 .relief .admitted rfl
  dsimp only
  simp only [a, demo_prcAt, if_true, portIn_timers, true_and]
  and_intros <;> decide +kernel

/-! ### Witnesses: the port requests -/

theorem witness_PortRequestsByState :
    (let s := demo 5 .idle .seen
     s.laneSettled ∧ (s.prcAt 0).timersOk ∧ (0 : Byte).toNat = (0 : Port).val ∧ Takes s ⟨0x22, 1, [0]⟩ ∧ Takes s ⟨0x23, 1, [0]⟩ ∧
       (s.prcAt 0).state.hasEpisode = false ∧ Takes s ⟨0x25, 1, [0]⟩ ∧ Takes s ⟨0x24, 1, [0, 16]⟩ ∧ 16 ≤ (16 : Byte).toNat ∧
       Takes s ⟨0x24, 1, [0, 15]⟩ ∧ (15 : Byte).toNat = (15 : ProgNo).val ∧ (s.prcAt 0).state ≠ .disarmed ∧
       s.pgs.programs[(15 : ProgNo)] = [] ∧ Takes s ⟨0x26, 1, [0]⟩ ∧ (s.prcAt 0).state ≠ .relief ∧ Takes s ⟨0x27, 1, [0]⟩ ∧
       (s.prcAt 0).state ≠ .paused) ∧
    (up.laneSettled ∧ (47 : Byte).toNat = (47 : Port).val ∧ Takes up ⟨0x22, 1, [47]⟩ ∧ Takes up ⟨0x24, 1, [47, 0]⟩ ∧
       (up.prcAt 47).state = .disarmed) ∧
    (let s := demo 5 .relief .admitted
     s.laneSettled ∧ (s.prcAt 0).timersOk ∧ Takes s ⟨0x24, 1, [0, 0]⟩ ∧ (s.prcAt 0).state.hasEpisode = true ∧
       s.pgs.programs[(0 : ProgNo)] ≠ [] ∧ (s.prcAt 0).standby = none) ∧
    (let s := (demo 5 .relief .admitted).modPrc 0 fun q => { q with standby := some 15 }
     Takes s ⟨0x24, 1, [0, 0]⟩ ∧ (s.prcAt 0).standby = some 15) := by
  dsimp only
  simp only [demo_prcAt, if_true, portIn_timers, true_and]
  and_intros <;> decide +kernel

theorem witness_PauseAndResume :
    (let s := demo 5 .relief .admitted
     s.laneSettled ∧ (s.prcAt 0).timersOk ∧ Takes s ⟨0x26, 1, [0]⟩ ∧ (s.prcAt 0).state = .relief) ∧
    (let s := demo 5 .paused .admitted
     s.laneSettled ∧ (s.prcAt 0).timersOk ∧ Takes s ⟨0x27, 1, [0]⟩ ∧ (s.prcAt 0).state = .paused ∧ (s.aduAt 0).waitQ = []) ∧
    (let s := demo 5 .paused .waiting
     s.booksOk ∧ (s.prcAt 0).timersOk ∧ Takes s ⟨0x27, 1, [0]⟩ ∧ (s.prcAt 0).state = .paused ∧
       s.admittedCount 0 < (s.currentStep 0).width ∧ (s.aduAt 0).waitQ ≠ []) ∧
    (up.laneSettled ∧ requestOf (.arm 1 [48]) = some ⟨0x22, 1, [48]⟩ ∧ Takes up ⟨0x22, 1, [48]⟩ ∧
       (0x22 : Byte) ∈ [0x20#8, 0x21, 0x22, 0x23, 0x24, 0x25, 0x26, 0x27] ∧ bodyLength 0x22 [48] = some [(48 : Byte)].length ∧
       wellFormed (.arm 1 [48]) = true ∧ 48 ≤ fieldAt [48] 0 1) := by
  have a := demo_books 5 .paused .waiting rfl
  dsimp only
  simp only [a, demo_prcAt, if_true, portIn_timers, true_and]
  and_intros <;> decide +kernel

/-- R98: the RESUME admits the waiting entry, and its gate has the divisor of the step for one gate. -/
theorem test_resume_refills :
    (let t := after (.resume 1 [0]) (demo 5 .paused .waiting)
     (t.aduAt 0, (t.prcAt 0).episode.admissions, (t.gpm.gate 0).mode, (t.prcAt 0).guard)) =
      (⟨[], [0]⟩, 1, .shaped, .running 5 1980) := by decide +kernel

/-- The fields of SET_PORT for port 47: program 15, level set 3, Lw 15, Ld 14, Td 0, F 1, Ts 0, Tdr 1, Tc 0. -/
def setPort47 : List Byte := [47, 15, 3, 15, 14, 0, 0, 1, 0, 0, 0, 0, 0, 1, 0, 0, 0, 0, 1]

theorem witness_SetPortChecksAndStores :
    (up.laneSettled ∧ Takes up ⟨0x20, 1, setPort47⟩ ∧ setPort47.length = 19 ∧ fieldAt setPort47 0 1 = (47 : Port).val ∧
      (up.prcAt 47).state = .disarmed ∧ fieldAt setPort47 4 1 < fieldAt setPort47 3 1) ∧
    (let b := setPort47.set 3 14
     Takes up ⟨0x20, 1, b⟩ ∧ b.length = 19 ∧ fieldAt b 3 1 ≤ fieldAt b 4 1) ∧
    (let s := demo 5 .idle .seen
     s.laneSettled ∧ Takes s ⟨0x20, 1, setPort47.set 0 0⟩ ∧ (s.prcAt 0).state ≠ .disarmed) := by
  dsimp only; and_intros <;> decide +kernel

theorem witness_GetPortReports :
    (up.laneSettled ∧ (47 : Byte).toNat = (47 : Port).val ∧ Takes up ⟨0x21, 1, [47]⟩ ∧ (up.prcAt 47).standby = none) ∧
    (let s := (demo 5 .relief .admitted).modPrc 0 fun q => { q with standby := some 15 }
     s.laneSettled ∧ Takes s ⟨0x21, 1, [0]⟩ ∧ (s.prcAt 0).standby = some 15) ∧
    (let s := demo 5 .drain .released
     s.laneSettled ∧ Takes s ⟨0x21, 1, [0]⟩ ∧ s.booksOk ∧ (s.prcAt 0).state = .drain) := by
  have a := demo_books 5 .drain .released rfl
  dsimp only
  simp only [a, true_and]
  and_intros <;> decide +kernel

/-- R86 and Table 10-2: k and the rate of divisor 31, at offsets 61 and 65 after the status byte. -/
theorem test_reported_rate :
    (replyTo (.getPort 1 [0]) (demo 5 .relief .admitted)).map (fun b => (fieldAt b 62 1, fieldAt b 66 4)) =
      some (1, 3200000) := by decide +kernel

/-! ### Witnesses: the requests of the link, the device and its tables -/

theorem witness_LinkRequestsByState :
    (Takes State.reset ⟨0x10, 1, []⟩ ∧ State.reset.laneSettled ∧ State.reset.flc.link = .down ∧ State.reset.flc.tx = none ∧
      State.reset.gpm.fifo = []) ∧
    (let s : State := { State.reset with gpm := { Gpm.reset with fifo := [5] } }
     Takes s ⟨0x10, 1, []⟩ ∧ s.laneSettled ∧ s.flc.link = .down ∧ s.flc.tx = none ∧ s.gpm.fifo ≠ []) ∧
    (Takes up ⟨0x10, 1, []⟩ ∧ up.laneSettled ∧ up.flc.link ≠ .down) ∧
    (Takes (linkIn .faulted) ⟨0x12, 1, []⟩ ∧ Takes (linkIn .faulted) ⟨0x11, 1, []⟩ ∧ (linkIn .faulted).laneSettled ∧
      (linkIn .faulted).flc.link = .faulted ∧ (linkIn .faulted).flc.tx = none) ∧
    (Takes (busyIn .faulted) ⟨0x11, 1, []⟩ ∧ (busyIn .faulted).laneSettled ∧ (busyIn .faulted).flc.tx ≠ none) ∧
    (Takes (busyIn .stopping) ⟨0x12, 1, []⟩ ∧ Takes (busyIn .stopping) ⟨0x11, 1, []⟩ ∧ (busyIn .stopping).laneSettled ∧
      (busyIn .stopping).flc.link = .stopping) ∧
    (let s := demo 5 .relief .admitted
     Takes s ⟨0x12, 1, []⟩ ∧ Takes s ⟨0x11, 1, []⟩ ∧ s.laneSettled ∧ s.flc.link = .up ∧ s.booksOk ∧ s.prc.timersOk) := by
  have a := demo_books 5 .relief .admitted rfl
  have b := demo_timers 5 .relief .admitted
  dsimp only
  simp only [a, b, and_true]
  and_intros <;> decide +kernel

theorem witness_IdentifyTimeStatus :
    up.laneSettled ∧ Takes up ⟨0x01, 1, []⟩ ∧ Takes up ⟨0x04, 1, []⟩ ∧ Takes up ⟨0x03, 1, []⟩ := by
  and_intros <;> decide +kernel

/-- SET_LEVELS of set 3 with all thresholds 0. -/
def levels3 : List Byte := 3 :: List.replicate 30 0

theorem witness_LevelSetsAreWrittenAndRead :
    (up.laneSettled ∧ levels3.length = 31 ∧ Takes up ⟨0x30, 1, levels3⟩ ∧ fieldAt levels3 0 1 = (3 : Fin 4).val ∧
      ∀ j < 16, 2 ≤ j → fieldAt levels3 (2 * j - 3) 2 ≤ fieldAt levels3 (2 * j - 1) 2) ∧
    (Takes up ⟨0x30, 1, levels3.set 0 4⟩ ∧ 4 ≤ fieldAt (levels3.set 0 4) 0 1) ∧
    (let b := levels3.set 28 1
     Takes up ⟨0x30, 1, b⟩ ∧ fieldAt b (2 * 15 - 1) 2 < fieldAt b (2 * 15 - 3) 2 ∧
       ∀ j < 15, 2 ≤ j → fieldAt b (2 * j - 3) 2 ≤ fieldAt b (2 * j - 1) 2) ∧
    (Takes up ⟨0x31, 1, [3]⟩ ∧ Takes up ⟨0x31, 1, [4]⟩ ∧ 4 ≤ (4 : Byte).toNat) := by
  dsimp only; and_intros <;> decide +kernel

/-- SET_WINDOW 7: enabled, base 0, k 15, BROAD, eligible, band 3, cap 0. -/
def window7 : List Byte := [7, 1, 0, 0, 15, 1, 1, 3, 0, 0, 0, 0]

theorem witness_WindowsAreWrittenAndRead :
    (let w : Window := ⟨true, 0x8000, 15, .broad, ⟨true, 3, 1024⟩, 0⟩
     2 ^ w.size.val ∣ w.base.toNat ∧ w.covers 0x8000 = true ∧ w.covers 0xFFFF = true ∧ w.covers 0x7FFF = false) ∧
    (up.laneSettled ∧ window7.length = 12 ∧ Takes up ⟨0x38, 1, window7⟩ ∧ fieldAt window7 0 1 = (7 : Fin 8).val ∧
      2 ^ fieldAt window7 4 1 ∣ fieldAt window7 2 2 ∧ ∀ j : Fin 8, up.cmp.windows[j].enable = false) ∧
    (Takes up ⟨0x38, 1, window7.set 0 8⟩ ∧ 7 < fieldAt (window7.set 0 8) 0 1) ∧
    (Takes up ⟨0x38, 1, window7.set 3 1⟩ ∧ ¬(2 ^ fieldAt (window7.set 3 1) 4 1 ∣ fieldAt (window7.set 3 1) 2 2)) ∧
    (let s := { up with cmp := { up.cmp with windows := up.cmp.windows.set 6 ⟨true, 32767, 0, .broad, ⟨true, 0, 1024⟩, 0⟩ } }
     Takes s ⟨0x38, 1, window7⟩ ∧ s.cmp.windows[(6 : Fin 8)].enable = true ∧ s.cmp.windows[(6 : Fin 8)].covers 32767 = true ∧
       (⟨true, 0, 15, .broad, ⟨true, 3, 1024⟩, 0⟩ : Window).covers 32767 = true) ∧
    (Takes up ⟨0x39, 1, [7]⟩ ∧ Takes up ⟨0x39, 1, [8]⟩ ∧ Takes up ⟨0x39, 1, [9]⟩ ∧ 8 < (9 : Byte).toNat) ∧
    (Takes up ⟨0x3A, 1, [2, 0, 0, 0, 0, 0]⟩ ∧ Takes up ⟨0x3A, 1, [1, 4, 0, 0, 0, 0]⟩ ∧ Takes up ⟨0x3A, 1, [1, 3, 0, 0, 0, 0]⟩) := by
  dsimp only; and_intros <;> decide +kernel

/-- A body that writes program 15 with these steps. -/
def program15 (recs : List (List Byte)) : List Byte := 15 :: BitVec.ofNat 8 recs.length :: recs.flatten

/-- The second factory step with the byte at an offset changed. -/
def stepWith (off : Nat) (x : Byte) : List Byte := Step.factory1.bytes.set off x

theorem witness_ProgramsAreWrittenAndRead :
    (let recs := List.replicate 32 Step.factory0.bytes
     up.laneSettled ∧ (15 : Byte).toNat = (15 : ProgNo).val ∧ (32 : Byte).toNat = recs.length ∧ (∀ r ∈ recs, r.length = 16) ∧
      Takes up ⟨0x40, 1, program15 recs⟩ ∧ (∀ r ∈ recs, failedItem r = none) ∧ (∀ p, (up.prcAt p).useCase 15 32 = none) ∧
      up.pgs.used - (up.pgs.programs[(15 : ProgNo)]).length + 32 ≤ 256) ∧
    (let s := { up with pgs := ⟨Vector.ofFn fun i : ProgNo => if i.val < 8 then List.replicate 32 Step.factory0 else []⟩ }
     Takes s ⟨0x40, 1, program15 [Step.factory0.bytes]⟩ ∧ (∀ p, (s.prcAt p).useCase 15 1 = none) ∧
       256 < s.pgs.used - (s.pgs.programs[(15 : ProgNo)]).length + 1) ∧
    (let s := demo 5 .relief .admitted
     s.laneSettled ∧ Takes s ⟨0x40, 1, [0, 0]⟩ ∧ (s.prcAt 0).state = .relief ∧ (s.prcAt 0).episode.program = 0) ∧
    (let s := (demo 5 .relief .admitted).modPrc 0 fun q => { q with standby := some 15 }
     Takes s ⟨0x40, 1, [15, 0]⟩ ∧ (s.prcAt 0).standby = some 15) ∧
    (let s := demo 5 .idle .seen
     Takes s ⟨0x40, 1, [0, 0]⟩ ∧ (s.prcAt 0).state ≠ .disarmed ∧ (s.prcAt 0).config.program = 0) ∧
    (Takes up ⟨0x40, 1, [16, 0]⟩ ∧ 15 < (16 : Byte).toNat ∧ (0 : Byte).toNat = ([] : List (List Byte)).length) ∧
    (Takes up ⟨0x40, 1, program15 (List.replicate 33 Step.factory0.bytes)⟩ ∧ 32 < (List.replicate 33 Step.factory0.bytes).length) ∧
    (Takes up ⟨0x40, 1, program15 [Step.factory0.bytes, stepWith 3 65]⟩ ∧ failedItem Step.factory0.bytes = none ∧
      failedItem (stepWith 3 65) = some 4 ∧ failedItem (stepWith 3 64) = none) ∧
    (Takes up ⟨0x41, 1, [15]⟩ ∧ Takes up ⟨0x41, 1, [16]⟩ ∧ ∀ st ∈ up.pgs.programs[(0 : ProgNo)], st.ok) := by
  refine ⟨?_, ?_, ?_, ?_, ?_, ?_, ?_, ?_, by decide +kernel, by decide +kernel, (reset_programs_ok.2 0).2⟩ <;>
    ((try dsimp only); and_intros <;> decide +kernel)

/-- Items 3 to 12 of R76: the field code of the item that one changed byte of a LEVEL step makes fail. -/
theorem test_failed_items :
    [failedItem (stepWith 0 0x10), failedItem (stepWith 2 0x21), failedItem (stepWith 3 0), failedItem (stepWith 4 0),
      failedItem (stepWith 5 0), failedItem (stepWith 6 16), failedItem (stepWith 2 0x04),
      failedItem ((stepWith 2 1).set 7 16), failedItem (stepWith 12 1), failedItem (((stepWith 2 0).set 10 0).set 11 0)]
      = [some 2, some 3, some 4, some 5, some 6, some 7, some 8, some 9, some 10, some 11] := by decide +kernel

/-- A part with one summary in the ring. -/
def oneSummary : State := { up with ern := { Ern.reset with history := [Episode.reset.summary 0 .stale 0] } }

theorem witness_TablesAreReadInRuns :
    up.laneSettled ∧ up.ern.history.length ≤ 32 ∧
    Takes up ⟨0x50, 1, be 1 4 ++ be 2 0 ++ be 2 65535⟩ ∧
    (Takes up ⟨0x50, 1, be 1 3 ++ be 2 47 ++ be 2 65535⟩ ∧ 47 < #v[2048, 1024, up.ern.history.length, 48][(3 : Fin 4)]) ∧
    (Takes up ⟨0x50, 1, be 1 2 ++ be 2 0 ++ be 2 1⟩ ∧ #v[2048, 1024, up.ern.history.length, 48][(2 : Fin 4)] ≤ 0) ∧
    (let s := demo 5 .relief .admitted
     s.laneSettled ∧ Takes s ⟨0x50, 1, be 1 0 ++ be 2 0 ++ be 2 2⟩ ∧ s.rtb.entry? 0 = some (entryIn .admitted) ∧
       s.rtb.entry? 1 = none ∧ Takes s ⟨0x50, 1, be 1 1 ++ be 2 1023 ++ be 2 1⟩) ∧
    (Takes oneSummary ⟨0x50, 1, be 1 2 ++ be 2 0 ++ be 2 1⟩ ∧ oneSummary.ern.history.length = 1) := by
  and_intros <;> decide +kernel

/-- Table 13-10: the RESPONDER record of an admitted, dry entry. -/
theorem test_responder_record :
    ((demo 5 .relief .admitted).tableRecord 0 0).take 20 =
      [0, 0, 0x3F, 2, 0, 0, 8, 3, 0, 0, 0, 7, 0, 0, 0, 0, 1, 0, 0, 0] := by decide +kernel

theorem witness_DeviceSettingsAndFault :
    up.laneSettled ∧ (4294967295 < 4294967296 ∧ Takes up ⟨0x05, 1, 0 :: be 4 4294967295⟩) ∧ Takes up ⟨0x51, 1, []⟩ ∧
    ((List.replicate 15 (15 : Byte)).length = 15 ∧ Takes up ⟨0x52, 1, List.replicate 15 15⟩ ∧
      ∀ i : Fin 15, fieldAt (List.replicate 15 15) i.val 1 ≤ 15) ∧
    (let b := (List.replicate 15 (15 : Byte)).set 14 16
     Takes up ⟨0x52, 1, b⟩ ∧ 15 < fieldAt b 14 1 ∧ ∀ j : Fin 15, j < 14 → fieldAt b j.val 1 ≤ 15) ∧
    Takes up ⟨0x53, 1, []⟩ := by
  dsimp only; and_intros <;> decide +kernel

theorem witness_NoticesHistoryAndFault :
    Ern.reset.pendingOk ∧ Ern.reset.level .episodeStep = 0 ∧ Ern.reset.level .linkState ≠ 0 ∧
    { Ern.reset with pendingSet := [⟨.linkState, none, 10, 255, 0, 2, 0⟩] }.pendingOk ∧
    (List.replicate 32 (Episode.reset.summary 0 .stale 0)).length ≤ 32 := by
  refine ⟨⟨List.Pairwise.nil, nofun⟩, by decide, by decide, ⟨List.pairwise_singleton _ _, fun n hn => ?_⟩, by decide⟩
  rw [List.mem_singleton.mp hn]
  decide

end Sys2Proof.Tests
end

section
/-! SUPPORT. Records taken by their block, the slots of the Responder Table, the class that decides, and the
entry that a Sighting creates. -/

namespace Sys2Proof.Machine

/-! ### A record taken by its block (R14) -/

/-- The event of a record that its block takes runs on the state without the record. -/
theorem onEvent_arriveRecord {s : State} {r : InRecord} (f : State → State) (h : TakesRecord s r) :
    onEvent (arriveRecord r f) s = .next (settle (f (s.withoutRecord r))) := by
  obtain ⟨hphase, hlink, hfirst⟩ := h
  unfold onEvent arriveRecord
  rw [if_pos hphase, if_pos hlink]
  rcases hfirst with hfirst | hnone
  · rw [hfirst]
    simp only [if_true]
    rfl
  · have habsent : r ∉ s.flc.handed := fun hm => by simpa using List.find?_eq_none.mp hnone r hm
    rw [hnone, State.withoutRecord, List.erase_of_not_mem habsent]

/-- A Sighting that is taken. -/
theorem exec_sighting_taken {s : State} {h : BitVec 32} {p : Port} {ing : BitVec 6} {srv : BitVec 16}
    (ht : TakesRecord s (.sighting h p ing srv)) : exec (.sighting h p ing srv) s =
      .next (settle (takeSighting h p ing srv (s.withoutRecord (.sighting h p ing srv)))) :=
  onEvent_arriveRecord _ ht

/-! ### Slots of the Responder Table -/

theorem Rtb.entry?_eq_none_iff {r : Rtb} {i : Slot} : r.entry? i = none ↔ ∀ x ∈ r.table, x.1 ≠ i := by
  simp [Rtb.entry?, List.find?_eq_none]

/-- With the slots in rising order, a slot of the table holds the entry it is listed with. -/
theorem Rtb.entry?_of_mem {r : Rtb} (h : r.table.Pairwise fun x y => x.1 < y.1) {x : Slot × Entry}
    (hx : x ∈ r.table) : r.entry? x.1 = some x.2 := by
  unfold Rtb.entry?
  generalize r.table = l at h hx
  induction l with
  | nil => cases hx
  | cons y l ih =>
    rw [List.pairwise_cons] at h
    rcases List.mem_cons.mp hx with rfl | hl
    · simp
    · have hne : y.1 ≠ x.1 := (h.1 x hl).ne
      rw [List.find?_cons_of_neg (by simpa using hne)]
      exact ih h.2 hl

/-- The table after an entry has been put into an empty slot. -/
theorem find?_insertEntry {i : Slot} (e : Entry) {l : List (Slot × Entry)} (h : ∀ x ∈ l, x.1 ≠ i) (j : Slot) :
    (insertEntry i e l).find? (fun x => x.1 == j) = if j = i then some (i, e) else l.find? fun x => x.1 == j := by
  induction l with
  | nil =>
    rcases eq_or_ne j i with rfl | hj
    · simp [insertEntry]
    · simp [insertEntry, hj, hj.symm]
  | cons x l ih =>
    have hx := h x (List.mem_cons_self ..)
    have ih := ih fun y hy => h y (List.mem_cons_of_mem _ hy)
    unfold insertEntry
    split
    · rcases eq_or_ne j i with rfl | hj
      · simp
      · rw [List.find?_cons_of_neg (by simpa using hj.symm), if_neg hj]
    · rcases eq_or_ne j i with rfl | hj
      · rw [List.find?_cons_of_neg (by simpa using hx), ih, if_pos rfl, if_pos rfl]
      · rw [if_neg hj] at ih ⊢
        rw [List.find?_cons, List.find?_cons, ih]

theorem insertEntry_perm (i : Slot) (e : Entry) (l : List (Slot × Entry)) :
    (insertEntry i e l).Perm ((i, e) :: l) := by
  induction l with
  | nil => exact .refl _
  | cons x l ih =>
    unfold insertEntry
    split
    · exact .refl _
    · exact (ih.cons x).trans (.swap ..)

/-- The first number of a range that meets a test. -/
theorem find?_finRange_eq_some {n : Nat} {P : Fin n → Bool} {i : Fin n} :
    (List.finRange n).find? P = some i ↔ P i = true ∧ ∀ j < i, ¬P j = true :=
  List.find?_ofFn_eq_some_of_injective Function.injective_id

theorem Rtb.lowestEmpty_eq_some {r : Rtb} {i : Slot} (hi : r.entry? i = none)
    (hlow : ∀ j, j < i → r.entry? j ≠ none) : r.lowestEmpty = some i :=
  find?_finRange_eq_some.mpr ⟨by simp [hi], fun j hj => by simpa using hlow j hj⟩

/-! ### The class that decides (R62) -/

theorem Cmp.decider_eq_some {m : Cmp} {k : Rank} {srv : BitVec 16} {w : Fin 8} :
    m.decider k srv = some w ↔
      (m.windows[w].enable = true ∧ m.windows[w].rank = k ∧ m.windows[w].covers srv = true) ∧
      ∀ v < w, ¬(m.windows[v].enable = true ∧ m.windows[v].rank = k ∧ m.windows[v].covers srv = true) := by
  unfold Cmp.decider
  rw [find?_finRange_eq_some]
  simp only [Bool.and_eq_true, beq_iff_eq, and_assoc]

theorem Cmp.decider_eq_none {m : Cmp} {k : Rank} {srv : BitVec 16} :
    m.decider k srv = none ↔
      ∀ v : Fin 8, ¬(m.windows[v].enable = true ∧ m.windows[v].rank = k ∧ m.windows[v].covers srv = true) := by
  simp [Cmp.decider, List.find?_eq_none]

/-- The class that decides is the one that the Class Map looks up. -/
theorem Cmp.Decides.classOf {m : Cmp} {srv : BitVec 16} {cls : Fin 9} {c : ClassParams} (h : m.Decides srv cls c) :
    classNumber (m.classOf srv) = cls ∧ m.paramsOf (m.classOf srv) = c := by
  rcases h with ⟨w, hcls, rfl, hon, hcov, hbest⟩ | ⟨rfl, rfl, hnone⟩
  · have hw : m.classOf srv = some w := by
      unfold Cmp.classOf
      rcases hbest w hon hcov with ⟨hpin, _⟩ | ⟨hbroad, _⟩
      · have hdec : m.decider .pinned srv = some w := by
          refine Cmp.decider_eq_some.mpr ⟨⟨hon, hpin, hcov⟩, fun v hv ⟨a, b, c⟩ => ?_⟩
          rcases hbest v a c with ⟨_, hle⟩ | ⟨_, hb, _⟩
          · exact absurd (hle b) (not_le.mpr hv)
          · exact absurd (b.symm.trans hb) (by decide)
        rw [hdec]
      · have hpin : m.decider .pinned srv = none := Cmp.decider_eq_none.mpr fun v ⟨a, b, c⟩ => by
          rcases hbest v a c with ⟨hp, _⟩ | ⟨_, hb, _⟩
          · exact absurd (hp.symm.trans hbroad) (by decide)
          · exact absurd (b.symm.trans hb) (by decide)
        have hdec : m.decider .broad srv = some w := by
          refine Cmp.decider_eq_some.mpr ⟨⟨hon, hbroad, hcov⟩, fun v hv ⟨a, _, c⟩ => ?_⟩
          rcases hbest v a c with ⟨hp, _⟩ | ⟨_, _, hle⟩
          · exact absurd (hp.symm.trans hbroad) (by decide)
          · exact absurd hle (not_le.mpr hv)
        rw [hpin, hdec]
    rw [hw]
    exact ⟨Fin.ext hcls.symm, rfl⟩
  · have hno (k : Rank) : m.decider k srv = none :=
      Cmp.decider_eq_none.mpr fun v ⟨a, _, c⟩ => hnone v ⟨a, c⟩
    have hw : m.classOf srv = none := by unfold Cmp.classOf; rw [hno, hno]
    rw [hw]
    exact ⟨rfl, rfl⟩

/-! ### Creating an entry (R45) -/

section
variable (i : Slot) (h : BitVec 32) (p : Port) (ing : BitVec 6) (srv : BitVec 16) (s : State)

/-- The entry that a Sighting creates in a state. -/
def State.created : Entry :=
  newEntry h p ing srv (s.cmp.classOf srv) (s.cmp.paramsOf (s.cmp.classOf srv)) s.now

theorem createEntry_table : (createEntry i h p ing srv s).rtb.table =
    insertEntry i (s.created h p ing srv) s.rtb.table := rfl

theorem createEntry_entry? (hi : s.rtb.entry? i = none) (j : Slot) :
    (createEntry i h p ing srv s).rtb.entry? j =
      if j = i then some (s.created h p ing srv) else s.rtb.entry? j := by
  unfold Rtb.entry?
  rw [createEntry_table, find?_insertEntry _ (Rtb.entry?_eq_none_iff.mp hi)]
  split <;> rfl

/-- Only the Responder Table and the match count of the deciding class change. -/
theorem createEntry_rest : createEntry i h p ing srv s =
    { s with rtb := (createEntry i h p ing srv s).rtb, cmp := s.cmp.hit (s.cmp.classOf srv) } := rfl

theorem createEntry_created (hi : s.rtb.entry? i = none) :
    EntryCreated i (s.created h p ing srv) s (createEntry i h p ing srv s) where
  slot := by rw [createEntry_entry? _ _ _ _ _ _ hi, if_pos rfl]
  others j hj := by rw [createEntry_entry? _ _ _ _ _ _ hi, if_neg hj]
  arrival := rfl
  counters := rfl
  hits w := by
    rw [createEntry_rest]
    show (s.cmp.hit (s.cmp.classOf srv)).windows[w] = if (classNumber (s.cmp.classOf srv)).val = w.val then _ else _
    cases s.cmp.classOf srv with
    | none =>
      have : (classNumber none).val ≠ w.val := by simp only [classNumber]; omega
      rw [if_neg this]; rfl
    | some v =>
      have hv : ((classNumber (some v)).val = w.val) = (w = v) := by
        simp only [classNumber, Fin.ext_iff, eq_comm]
      simp only [hv, Cmp.hit, modAt_get]
      split <;> simp_all
  dfltHits := by
    rw [createEntry_rest]
    show (s.cmp.hit (s.cmp.classOf srv)).dfltHits = if classNumber (s.cmp.classOf srv) = 8 then _ else _
    cases s.cmp.classOf srv with
    | none => rfl
    | some v => rw [if_neg fun hv => by have := congrArg Fin.val hv; simp only [classNumber] at this; omega]; rfl
  kept := ⟨by rw [createEntry_rest]; cases s.cmp.classOf srv <;> rfl, rfl⟩
  rest := rfl

/-- The fan-in counts a new entry of the port that is eligible (R51). -/
theorem createEntry_fanIn (he : (s.created h p ing srv).eligible = true) :
    (createEntry i h p ing srv s).fanIn p = s.fanIn p + 1 := by
  unfold State.fanIn
  rw [createEntry_table, (insertEntry_perm ..).countP_eq, List.countP_cons_of_pos]
  simp only [he, Bool.and_true, beq_iff_eq]
  rfl

/-! ### The cases of a Sighting (R44 to R48) -/

/-- Neither an opening nor an arrival follows a new entry: the port is not in RELIEF or PAUSED, and not in a
qualified WATCH whose opening condition holds (R46, R93). -/
theorem handOver_eq_self (st : PortState) (hr : st ≠ .relief) (hp : st ≠ .paused) (ho : s.openingHolds p = false) :
    handOver i p st s = s := by
  simp [handOver, checkOpening, ho, hr, hp]

/-- A new entry of a port in RELIEF or PAUSED is an arrival (R46). -/
theorem handOver_arrives (st : PortState) (hst : st = .relief ∨ st = .paused) (ho : s.openingHolds p = false) :
    handOver i p st s = arrive p i s := by
  simp [handOver, checkOpening, ho, hst]

theorem openingHolds_of_not_watch (hw : (s.prcAt p).state ≠ .watch) : s.openingHolds p = false := by
  simp [State.openingHolds, hw]

theorem takeSighting_known {e : Entry} (hl : s.rtb.lookup h p = some (i, e)) :
    takeSighting h p ing srv s = refresh i s := by
  unfold takeSighting; rw [hl]

theorem takeSighting_new (hl : s.rtb.lookup h p = none) (hn : s.rtb.table.length < 2048) :
    takeSighting h p ing srv s = learn h p ing srv s := by
  unfold takeSighting; rw [hl]; exact if_pos hn

theorem takeSighting_evicts {e : Entry} (hl : s.rtb.lookup h p = none) (hn : 2048 ≤ s.rtb.table.length)
    (ho : oldestSeen s.now s.rtb.table = some (i, e)) :
    takeSighting h p ing srv s = learn h p ing srv (evict i s) := by
  unfold takeSighting; rw [hl, ho]; exact if_neg (by omega)

theorem takeSighting_loses (hl : s.rtb.lookup h p = none) (hn : 2048 ≤ s.rtb.table.length)
    (ho : oldestSeen s.now s.rtb.table = none) : takeSighting h p ing srv s = loseSighting s := by
  unfold takeSighting; rw [hl, ho]; exact if_neg (by omega)

theorem learn_in_slot (hi : s.rtb.entry? i = none) (hlow : ∀ j, j < i → s.rtb.entry? j ≠ none) :
    learn h p ing srv s =
      if (s.created h p ing srv).eligible then handOver i p (s.prcAt p).state (createEntry i h p ing srv s)
      else createEntry i h p ing srv s := by
  unfold learn; rw [Rtb.lowestEmpty_eq_some hi hlow]; rfl

/-- A new entry that is no arrival and opens no episode (R45, R46, R93). -/
theorem learn_only_creates (hi : s.rtb.entry? i = none) (hlow : ∀ j, j < i → s.rtb.entry? j ≠ none)
    (hq : (s.created h p ing srv).eligible = false ∨ ((s.prcAt p).state ≠ .relief ∧ (s.prcAt p).state ≠ .paused ∧
      ((s.prcAt p).state = .watch → (s.prcAt p).qualified = false ∨ s.fanIn p + 1 < (s.prcAt p).config.fanIn ∨
        s.pgs.programs[(s.prcAt p).config.program] = []))) :
    learn h p ing srv s = createEntry i h p ing srv s := by
  rw [learn_in_slot _ _ _ _ _ _ hi hlow]
  by_cases he : (s.created h p ing srv).eligible = true
  · rw [if_pos he]
    obtain ⟨hrel, hpau, hwatch⟩ := hq.resolve_left (by simp [he])
    refine handOver_eq_self _ _ _ _ hrel hpau ?_
    have hfan := createEntry_fanIn i h p ing srv s he
    have hopen : (createEntry i h p ing srv s).openingHolds p = ((s.prcAt p).state == .watch && (s.prcAt p).qualified
        && decide ((s.prcAt p).config.fanIn ≤ s.fanIn p + 1)
        && !(s.pgs.programs[(s.prcAt p).config.program]).isEmpty) := by rw [← hfan]; rfl
    rw [hopen]
    by_cases hw : (s.prcAt p).state = .watch
    · rcases hwatch hw with hun | hlt | hempty
      · simp [hun]
      · simp [hlt]
      · simp [hempty]
    · simp [hw]
  · rw [if_neg he]

/-- A new eligible entry of a port in RELIEF or PAUSED arrives (R46, R130, R131). -/
theorem learn_arrives (hi : s.rtb.entry? i = none) (hlow : ∀ j, j < i → s.rtb.entry? j ≠ none)
    (he : (s.created h p ing srv).eligible = true)
    (hst : (s.prcAt p).state = .relief ∨ (s.prcAt p).state = .paused) :
    learn h p ing srv s = arrive p i (createEntry i h p ing srv s) := by
  have hnotwatch : (s.prcAt p).state ≠ .watch := by rcases hst with hst | hst <;> rw [hst] <;> decide
  rw [learn_in_slot _ _ _ _ _ _ hi hlow, if_pos he]
  exact handOver_arrives _ _ _ _ hst (openingHolds_of_not_watch p (createEntry i h p ing srv s) hnotwatch)

end

end Sys2Proof.Machine
end

section
/-! SUPPORT. The orders of an event: gates that a bind or a re-rating changes join the pending-order FIFO, and what
the settling at the end of the event does to gates and notices. -/

namespace Sys2Proof.Machine

/-! ### The binding and the wanted state of a gate -/

theorem Gate.sameWanted.refl (g : Gate) : g.sameWanted g := ⟨rfl, rfl, rfl, rfl, rfl⟩

theorem Gate.sameWanted.symm {g h : Gate} : g.sameWanted h → h.sameWanted g :=
  fun ⟨a, b, c, d, e⟩ => ⟨a.symm, b.symm, c.symm, d.symm, e.symm⟩

theorem Gate.sameWanted.trans {g h k : Gate} : g.sameWanted h → h.sameWanted k → g.sameWanted k :=
  fun ⟨a, b, c, d, e⟩ ⟨a', b', c', d', e'⟩ => ⟨a.trans a', b.trans b', c.trans c', d.trans d', e.trans e'⟩

/-! ### Gates that join the FIFO -/

/-- Between `a` and `b` exactly the gates that have another binding or wanted state, and were absent from the FIFO,
have joined its tail, each once (R145, R147). -/
def Gpm.Enqueued (a b : Gpm) : Prop :=
  ∃ added : List GateNo, added.Nodup ∧ b.fifo = a.fifo ++ added ∧
    ∀ g, g ∈ added ↔ g ∉ a.fifo ∧ ¬(b.gate g).sameWanted (a.gate g)

theorem Gpm.Enqueued.of_unchanged {a b : Gpm} (hfifo : b.fifo = a.fifo)
    (h : ∀ g, (b.gate g).sameWanted (a.gate g)) : a.Enqueued b :=
  ⟨[], List.nodup_nil, by simp [hfifo], fun g => by simp [h g]⟩

theorem Gpm.Enqueued.refl (a : Gpm) : a.Enqueued a := .of_unchanged rfl fun _ => .refl _

/-- One gate changes and enters the FIFO. -/
theorem Gpm.Enqueued.enter {a b : Gpm} (g : GateNo) (hfifo : b.fifo = if g ∈ a.fifo then a.fifo else a.fifo ++ [g])
    (hother : ∀ h, h ≠ g → b.gate h = a.gate h) (hg : ¬(b.gate g).sameWanted (a.gate g)) : a.Enqueued b := by
  have hchanged (h : GateNo) : ¬(b.gate h).sameWanted (a.gate h) ↔ h = g :=
    ⟨fun hn => by_contra fun hne => hn (hother h hne ▸ .refl _), fun e => e ▸ hg⟩
  by_cases hm : g ∈ a.fifo
  · refine ⟨[], List.nodup_nil, by simp [hfifo, hm], fun h => ?_⟩
    rw [hchanged]
    exact ⟨nofun, fun ⟨hn, e⟩ => absurd (e ▸ hm) hn⟩
  · refine ⟨[g], List.nodup_singleton g, by simp [hfifo, hm], fun h => ?_⟩
    rw [hchanged, List.mem_singleton]
    exact ⟨fun e => ⟨e ▸ hm, e⟩, And.right⟩

/-- Two runs of changes of which the second brings no gate back to where it stood before the first. -/
theorem Gpm.Enqueued.trans {a b c : Gpm} (h : a.Enqueued b) (k : b.Enqueued c)
    (hstay : ∀ g, ¬(b.gate g).sameWanted (a.gate g) → ¬(c.gate g).sameWanted (a.gate g)) : a.Enqueued c := by
  obtain ⟨l, hl, hlf, hlm⟩ := h
  obtain ⟨m, hm, hmf, hmm⟩ := k
  simp only [hlf, List.mem_append, not_or] at hmm
  refine ⟨l ++ m, List.nodup_append.mpr ⟨hl, hm, ?_⟩, by rw [hmf, hlf, List.append_assoc], fun g => ?_⟩
  · rintro g hgl _ hgm rfl
    exact ((hmm g).mp hgm).1.2 hgl
  · rw [List.mem_append]
    constructor
    · rintro (hg | hg)
      · obtain ⟨hout, hne⟩ := (hlm g).mp hg
        exact ⟨hout, hstay g hne⟩
      · obtain ⟨⟨hout, hnl⟩, hne⟩ := (hmm g).mp hg
        have hsame : (b.gate g).sameWanted (a.gate g) := by_contra fun hd => hnl ((hlm g).mpr ⟨hout, hd⟩)
        exact ⟨hout, fun hca => hne (hca.trans hsame.symm)⟩
    · rintro ⟨hout, hne⟩
      by_cases hsame : (b.gate g).sameWanted (a.gate g)
      · exact .inr ((hmm g).mpr ⟨⟨hout, fun hgl => ((hlm g).mp hgl).2 hsame⟩, fun hcb => hne (hcb.trans hsame)⟩)
      · exact .inl ((hlm g).mpr ⟨hout, hsame⟩)

/-! ### A bind (R142) -/

section
variable (m : Gpm) (g : GateNo) (rest : List GateNo) (k : Key) (mode : GateMode) (res : Resolution)

theorem Gpm.bind_gate (h : GateNo) : (m.bind g rest k mode res).gate h =
    if h = g then ⟨(m.gate g).epoch + 1, some k, mode, 0, res, 0, 0⟩ else m.gate h := by
  rw [Gpm.bind, Gpm.gate_enter]
  exact Gpm.gate_modGate m g h _

theorem Gpm.bind_free : (m.bind g rest k mode res).free = rest := by
  obtain ⟨_, hfree, _⟩ := Gpm.enter_keeps { m.modGate g (Gate.bindTo k mode res) with
    free := rest, binds := sat32 (m.binds + 1) } g
  exact hfree

theorem Gpm.bind_fifo : (m.bind g rest k mode res).fifo = if g ∈ m.fifo then m.fifo else m.fifo ++ [g] := by
  obtain ⟨_, _, _, _, hfifo⟩ := Gpm.enter_keeps { m.modGate g (Gate.bindTo k mode res) with
    free := rest, binds := sat32 (m.binds + 1) } g
  exact hfifo

/-- The epoch of a bind is a new one. -/
theorem epoch_succ_ne (e : BitVec 4) : e + 1 ≠ e := by bv_omega

theorem Gpm.bind_enqueued : m.Enqueued (m.bind g rest k mode res) := by
  refine .enter g (m.bind_fifo ..) (fun h hne => ?_) fun ⟨hepoch, _⟩ => ?_
  · rw [Gpm.bind_gate, if_neg hne]
  · rw [Gpm.bind_gate, if_pos rfl] at hepoch
    exact epoch_succ_ne _ hepoch

end

/-! ### A re-rating (R133, R145, R166) -/

/-- A SHAPED gate is given a divisor and a resolution; another gate is left alone. -/
def Gpm.rerateGate (d : Nat) (r : Resolution) (m : Gpm) (g : GateNo) : Gpm :=
  if (m.gate g).mode = .shaped then m.want g .shaped d r else m

/-- The record that a re-rating gives to a SHAPED gate. -/
def Gate.ratedAt (d : Nat) (r : Resolution) (g : Gate) : Gate :=
  if g.mode = .shaped then { g with divisor := d, res := r } else g

theorem Gate.ratedAt_ratedAt (d : Nat) (r : Resolution) (g : Gate) : (g.ratedAt d r).ratedAt d r = g.ratedAt d r := by
  unfold Gate.ratedAt
  split <;> simp [*]

theorem Gate.ratedAt_keeps (d : Nat) (r : Resolution) (g : Gate) :
    (g.ratedAt d r).epoch = g.epoch ∧ (g.ratedAt d r).bound = g.bound ∧ (g.ratedAt d r).mode = g.mode := by
  unfold Gate.ratedAt; split <;> exact ⟨rfl, rfl, rfl⟩

section
variable (m : Gpm) (g : GateNo) (d : Nat) (r : Resolution)

theorem Gpm.want_gate (mode : GateMode) (h : GateNo) : (m.want g mode d r).gate h =
    if h = g then { m.gate g with mode := mode, divisor := d, res := r } else m.gate h := by
  unfold Gpm.want
  dsimp only
  split
  · exact Gpm.gate_modGate m g h _
  · rw [Gpm.gate_enter]; exact Gpm.gate_modGate m g h _

theorem Gpm.want_free (mode : GateMode) : (m.want g mode d r).free = m.free := by
  unfold Gpm.want
  dsimp only
  split
  · rfl
  · obtain ⟨_, hfree, _⟩ := Gpm.enter_keeps (m.modGate g fun x => { x with mode := mode, divisor := d, res := r }) g
    exact hfree

/-- Only a change of one of the three fields enters the gate into the FIFO (R145). -/
theorem Gpm.want_enqueued (mode : GateMode) : m.Enqueued (m.want g mode d r) := by
  by_cases hsame : (m.gate g).mode = mode ∧ (m.gate g).divisor = d ∧ (m.gate g).res = r
  · refine .of_unchanged (by simp only [Gpm.want, if_pos hsame]; rfl) fun h => ?_
    rw [Gpm.want_gate]
    split
    · next e =>
      obtain ⟨rfl, rfl, rfl⟩ := hsame
      rw [e]
      exact .refl _
    · exact .refl _
  · refine .enter g ?_ (fun h hne => by rw [Gpm.want_gate, if_neg hne]) ?_
    · obtain ⟨_, _, _, _, hfifo⟩ :=
        Gpm.enter_keeps (m.modGate g fun x => { x with mode := mode, divisor := d, res := r }) g
      simp only [Gpm.want, if_neg hsame]
      exact hfifo
    · rw [Gpm.want_gate, if_pos rfl]
      exact fun ⟨_, _, hmode, hdiv, hres⟩ => hsame ⟨hmode.symm, hdiv.symm, hres.symm⟩

theorem Gpm.rerateGate_gate (h : GateNo) :
    (m.rerateGate d r g).gate h = if h = g then (m.gate h).ratedAt d r else m.gate h := by
  unfold Gpm.rerateGate Gate.ratedAt
  split
  · next hm =>
    rw [Gpm.want_gate]
    split
    · next e => rw [e, if_pos hm, ← hm]
    · rfl
  · next hm =>
    split
    · next e => rw [e, if_neg hm]
    · rfl

theorem Gpm.rerateGate_enqueued : m.Enqueued (m.rerateGate d r g) := by
  unfold Gpm.rerateGate
  split
  · exact m.want_enqueued ..
  · exact .refl m

theorem Gpm.rerateGate_free : (m.rerateGate d r g).free = m.free := by
  unfold Gpm.rerateGate
  split
  · exact m.want_free ..
  · rfl

end

section
variable (d : Nat) (r : Resolution) (l : List GateNo) (m : Gpm)

theorem Gpm.rerateGates_gate (h : GateNo) : (l.foldl (Gpm.rerateGate d r) m).gate h =
    if h ∈ l then (m.gate h).ratedAt d r else m.gate h := by
  induction l generalizing m with
  | nil => rfl
  | cons g l ih =>
    rw [List.foldl_cons, ih, Gpm.rerateGate_gate]
    by_cases hg : h = g
    · simp [hg, Gate.ratedAt_ratedAt]
    · simp [hg]

theorem Gpm.rerateGates_free : (l.foldl (Gpm.rerateGate d r) m).free = m.free := by
  induction l generalizing m with
  | nil => rfl
  | cons g l ih => rw [List.foldl_cons, ih, Gpm.rerateGate_free]

/-- A gate that a re-rating has changed stays as it then is, so the FIFO has taken the changed gates. -/
theorem Gpm.rerateGates_enqueued : m.Enqueued (l.foldl (Gpm.rerateGate d r) m) := by
  induction l generalizing m with
  | nil => exact .refl m
  | cons g l ih =>
    refine (m.rerateGate_enqueued g d r).trans (ih _) fun h hne => ?_
    have hg : h = g := by_contra fun hd => hne (by rw [Gpm.rerateGate_gate, if_neg hd]; exact .refl _)
    have hstay : (l.foldl (Gpm.rerateGate d r) (m.rerateGate d r g)).gate h = (m.rerateGate d r g).gate h := by
      rw [Gpm.rerateGates_gate, Gpm.rerateGate_gate, if_pos hg, Gate.ratedAt_ratedAt, ite_self]
    rw [List.foldl_cons, hstay]
    exact hne

end

/-- The gates of the admitted entries of a port, oldest admission first. -/
def State.admittedGates (s : State) (p : Port) : List GateNo := (s.aduAt p).admitted.filterMap s.gateOf

/-- Re-rating changes the Gate Pool Manager only, gate by gate. -/
theorem rerate_eq (p : Port) (s : State) : rerate p s = { s with
    gpm := (s.admittedGates p).foldl
      (Gpm.rerateGate (gateDivisor (s.currentStep p).pt (s.admittedCount p)) (s.currentStep p).res) s.gpm } := by
  have key (d : Nat) (r : Resolution) (l : List Slot) (m : Gpm) :
      l.foldl (fun u i => onGateOf i (fun g m => if (m.gate g).mode = .shaped then m.want g .shaped d r else m) u)
        { s with gpm := m } =
      { s with gpm := (l.filterMap s.gateOf).foldl (Gpm.rerateGate d r) m } := by
    induction l generalizing m with
    | nil => rfl
    | cons i l ih =>
      rw [List.foldl_cons]
      cases hi : s.gateOf i with
      | none =>
        rw [List.filterMap_cons_none hi, ← ih]
        congr 1
        show onGateOf i _ _ = _
        unfold onGateOf
        rw [show State.gateOf { s with gpm := m } i = none from hi]
      | some g =>
        rw [List.filterMap_cons_some hi, List.foldl_cons, ← ih]
        congr 1
        show onGateOf i _ _ = _
        unfold onGateOf
        rw [show State.gateOf { s with gpm := m } i = some g from hi]
        rfl
  exact key _ _ _ s.gpm

section
variable (p : Port) (s : State)

theorem rerate_gate (g : GateNo) : (rerate p s).gpm.gate g =
    if g ∈ s.admittedGates p then
      (s.gpm.gate g).ratedAt (gateDivisor (s.currentStep p).pt (s.admittedCount p)) (s.currentStep p).res
    else s.gpm.gate g := by
  rw [rerate_eq]; exact Gpm.rerateGates_gate ..

theorem rerate_gate_keeps (g : GateNo) : ((rerate p s).gpm.gate g).epoch = (s.gpm.gate g).epoch ∧
    ((rerate p s).gpm.gate g).bound = (s.gpm.gate g).bound ∧ ((rerate p s).gpm.gate g).mode = (s.gpm.gate g).mode := by
  rw [rerate_gate]
  split
  · exact Gate.ratedAt_keeps ..
  · exact ⟨rfl, rfl, rfl⟩

theorem rerate_free : (rerate p s).gpm.free = s.gpm.free := by
  rw [rerate_eq]; exact Gpm.rerateGates_free ..

theorem rerate_enqueued : s.gpm.Enqueued (rerate p s).gpm := by
  rw [rerate_eq]; exact Gpm.rerateGates_enqueued ..

theorem rerate_rest : rerate p s = { s with gpm := (rerate p s).gpm } := by
  rw [rerate_eq]

@[simp] theorem rerate_oev : (rerate p s).oev = s.oev := by rw [rerate_rest]
@[simp] theorem rerate_rtb : (rerate p s).rtb = s.rtb := by rw [rerate_rest]
@[simp] theorem rerate_cru : (rerate p s).cru = s.cru := by rw [rerate_rest]
@[simp] theorem rerate_prcAt (q : Port) : (rerate p s).prcAt q = s.prcAt q := by rw [rerate_rest]; rfl
@[simp] theorem rerate_aduAt (q : Port) : (rerate p s).aduAt q = s.aduAt q := by rw [rerate_rest]; rfl
@[simp] theorem rerate_gateOf (i : Slot) : (rerate p s).gateOf i = s.gateOf i := by rw [rerate_rest]; rfl
@[simp] theorem rerate_currentStep (q : Port) : (rerate p s).currentStep q = s.currentStep q := by
  rw [rerate_rest]; rfl

end

/-! ### The settling at the end of an event -/

section
variable (s : State)

/-- Settling changes the two transmitters, the Gate Pool Manager and the pending set only. -/
theorem settle_rest : settle s = { s with
    flc := (settle s).flc, gpm := (settle s).gpm, ern := (settle s).ern, clc := (settle s).clc } := by
  obtain ⟨h1, h2, h3, h4, h5, h6, h7, h8, h9, h10, h11⟩ := settle_frame s
  rw [← h1, ← h2, ← h3, ← h4, ← h5, ← h6, ← h7, ← h8, ← h9, ← h10, ← h11]

@[simp] theorem settle_phase : (settle s).phase = s.phase := by rw [settle_rest]
@[simp] theorem settle_tmb : (settle s).tmb = s.tmb := by rw [settle_rest]
@[simp] theorem settle_oev : (settle s).oev = s.oev := by rw [settle_rest]
@[simp] theorem settle_rtb : (settle s).rtb = s.rtb := by rw [settle_rest]
@[simp] theorem settle_cmp : (settle s).cmp = s.cmp := by rw [settle_rest]
@[simp] theorem settle_pgs : (settle s).pgs = s.pgs := by rw [settle_rest]
@[simp] theorem settle_adu : (settle s).adu = s.adu := by rw [settle_rest]
@[simp] theorem settle_cru : (settle s).cru = s.cru := by rw [settle_rest]
@[simp] theorem settle_prcAt (q : Port) : (settle s).prcAt q = s.prcAt q := by rw [settle_rest]; rfl
@[simp] theorem settle_oevAt (q : Port) : (settle s).oevAt q = s.oevAt q := by rw [settle_rest]; rfl
@[simp] theorem settle_aduAt (q : Port) : (settle s).aduAt q = s.aduAt q := by rw [settle_rest]; rfl
@[simp] theorem settle_cruAt (q : Port) : (settle s).cruAt q = s.cruAt q := by rw [settle_rest]; rfl
@[simp] theorem settle_gateOf (i : Slot) : (settle s).gateOf i = s.gateOf i := by rw [settle_rest]; rfl
@[simp] theorem settle_currentStep (q : Port) : (settle s).currentStep q = s.currentStep q := by
  rw [settle_rest]; rfl

end

theorem Gpm.takeBatch_sameWanted (m : Gpm) (g : GateNo) : (m.takeBatch.gate g).sameWanted (m.gate g) := by
  have key (l : List GateNo) (u : Gpm) :
      ((l.foldl (fun m g => m.modGate g Gate.taken) u).gate g).sameWanted (u.gate g) := by
    induction l generalizing u with
    | nil => exact .refl _
    | cons h l ih =>
      refine (ih _).trans ?_
      rw [Gpm.gate_modGate]
      split
      · next e => rw [e]; exact ⟨rfl, rfl, rfl, rfl, rfl⟩
      · exact .refl _
  exact key m.batch m

theorem Gpm.takeBatch_free (m : Gpm) : m.takeBatch.free = m.free := by
  have key (l : List GateNo) (u : Gpm) : (l.foldl (fun m g => m.modGate g Gate.taken) u).free = u.free := by
    induction l generalizing u with
    | nil => rfl
    | cons h l ih => exact ih _
  exact key m.batch m

/-- The lane takes from the FIFO as the event has left it (R15). -/
theorem laneTakes_settle {s u : State}
    (h : u.flc.tx = s.flc.tx ∧ u.flc.link = s.flc.link ∧ u.flc.outSeq = s.flc.outSeq) :
    s.laneTakes u.gpm (settle u) := by
  obtain ⟨htx, hlink, hseq⟩ := h
  obtain ⟨_, _, hflc, _, _, _, _, _, _, _, hgpm, _, _⟩ := ctlPump_frame (fabPump u)
  unfold State.laneTakes settle
  rw [hgpm, hflc, ← htx, ← hlink, ← hseq]
  unfold fabPump
  by_cases hbusy : u.flc.tx.isSome ∨ u.flc.link = .down
  · rw [if_pos hbusy, if_neg fun ⟨ha, hb, _⟩ => hbusy.elim (by simp [ha]) hb]
  · simp only [not_or, Bool.not_eq_true, Option.isSome_eq_false_iff, Option.isNone_iff_eq_none] at hbusy
    by_cases hempty : u.gpm.fifo = []
    · simp only [hempty, ne_eq, not_true_eq_false, and_false, if_false]
      split_ifs <;> rfl
    · rw [if_pos ⟨hbusy.1, hbusy.2, hempty⟩, if_neg (by simp [hbusy]), if_pos hempty]
      exact ⟨rfl, rfl⟩

theorem State.laneTakes_gpm {s t : State} {m : Gpm} (h : s.laneTakes m t) : t.gpm = m.takeBatch ∨ t.gpm = m := by
  unfold State.laneTakes at h
  split at h
  · exact .inl h.1
  · exact .inr h

theorem settle_sameWanted (u : State) (g : GateNo) : ((settle u).gpm.gate g).sameWanted (u.gpm.gate g) := by
  rcases State.laneTakes_gpm (laneTakes_settle (s := u) ⟨rfl, rfl, rfl⟩) with h | h <;> rw [h]
  · exact u.gpm.takeBatch_sameWanted g
  · exact .refl _

theorem settle_free (u : State) : (settle u).gpm.free = u.gpm.free := by
  rcases State.laneTakes_gpm (laneTakes_settle (s := u) ⟨rfl, rfl, rfl⟩) with h | h <;> rw [h]
  exact u.gpm.takeBatch_free

/-- The orders of the changed gates are on their way at the end of the event. -/
theorem ordersMade_settle {s u : State}
    (h : u.flc.tx = s.flc.tx ∧ u.flc.link = s.flc.link ∧ u.flc.outSeq = s.flc.outSeq)
    (hq : s.gpm.Enqueued u.gpm) : ∃ added, OrdersMade added s (settle u) := by
  obtain ⟨added, hnodup, hfifo, hmem⟩ := hq
  refine ⟨added, hnodup, fun g => ?_, u.gpm, hfifo, laneTakes_settle h⟩
  rw [hmem]
  have hs := settle_sameWanted u g
  exact and_congr_right fun _ => not_congr ⟨hs.trans, hs.symm.trans⟩

/-- The admitted gates of a port after a re-rating and the settling, all of them SHAPED before (R133, R165). -/
theorem rated_settle_rerate {p : Port} {s : State}
    (h : ∀ i ∈ (s.aduAt p).admitted, ∃ g, s.gateOf i = some g ∧ (s.gpm.gate g).mode = .shaped) :
    (settle (rerate p s)).rated p := by
  intro i hi
  rw [settle_aduAt, rerate_aduAt] at hi
  obtain ⟨g, hg, hmode⟩ := h i hi
  have hin : g ∈ s.admittedGates p := List.mem_filterMap.mpr ⟨i, hi, hg⟩
  obtain ⟨_, _, smode, sdiv, sres⟩ := settle_sameWanted (rerate p s) g
  rw [rerate_gate, if_pos hin, Gate.ratedAt, if_pos hmode] at smode sdiv sres
  refine ⟨g, by simpa using hg, smode.trans hmode, by simpa using sres, ?_⟩
  simpa [State.admittedCount, gateDivisor] using sdiv

/-! ### Notices of an event (R174, R176) -/

/-- An occurrence raised at a level above 0 stands in the pending set. -/
theorem Ern.raise_waits (e : Ern) (c : NoticeClass) (sc : Option Port) (ep v : Nat) (time : BitVec 32)
    (hl : e.level c ≠ 0) : ∃ n ∈ (e.raise c sc ep v time).pendingSet, n.cls = c ∧ n.scope = sc ∧
      n.level = e.level c ∧ n.episode = ep ∧ n.value = v ∧ n.time = time := by
  unfold Ern.raise
  rw [if_neg hl]
  split
  · next hany =>
    obtain ⟨n, hn, hk⟩ := List.any_eq_true.mp hany
    simp only [Bool.and_eq_true, beq_iff_eq] at hk
    exact ⟨_, List.mem_map.mpr ⟨n, hn, if_pos hk⟩, rfl, rfl, rfl, rfl, rfl, rfl⟩
  · exact ⟨_, mem_insertNotice.mpr (.inl rfl), rfl, rfl, rfl, rfl, rfl, rfl⟩

/-- A waiting notice goes on waiting, or its frame begins. -/
theorem ctlPump_keeps_notice (u : State) {n : Notice} (hn : n ∈ u.ern.pendingSet) :
    n ∈ (ctlPump u).ern.pendingSet ∨ (ctlPump u).clc.tx = some (ctlFrame 0x7F 0 n.body) := by
  unfold ctlPump
  split
  · exact .inl hn
  · split
    · exact .inl hn
    · split
      · exact .inl hn
      · next m _ =>
        by_cases hm : n = m
        · exact .inr (by rw [hm])
        · exact .inl ((List.mem_erase_of_ne hm).mpr hn)

theorem ctlPump_levels (u : State) : (ctlPump u).ern.levels = u.ern.levels := by
  unfold ctlPump
  split
  · rfl
  · split
    · rfl
    · split <;> rfl

/-- Outside STOPPING the fabric transmitter raises no notice. -/
theorem fabPump_ern {u : State} (h : u.flc.link ≠ .stopping) : (fabPump u).ern = u.ern := by
  unfold fabPump
  split_ifs <;> rfl

/-- An occurrence is announced at the end of the event that has raised it. -/
theorem announces_settle {u : State} {e : Ern} {c : NoticeClass} {sc : Option Port} {ep v : Nat} {time : BitVec 32}
    (hlink : u.flc.link ≠ .stopping) (hu : u.ern = e.raise c sc ep v time) :
    (settle u).announces c sc ep v time := by
  obtain ⟨hlevels, _⟩ := Ern.raise_keeps e c sc ep v time
  have hern := fabPump_ern hlink
  have hlevel : (settle u).ern.level c = e.level c := by
    unfold settle Ern.level
    rw [ctlPump_levels, hern, hu, hlevels]
  intro hl
  rw [hlevel] at hl ⊢
  obtain ⟨n, hn, hcls, hsc, hlev, hep, hv, ht⟩ := e.raise_waits c sc ep v time hl
  exact ⟨n, hcls, hsc, hlev, hep, hv, ht, ctlPump_keeps_notice (fabPump u) (by rwa [hern, hu])⟩

end Sys2Proof.Machine
end

section
/-! SUPPORT. An arrival (R130, R131): what it leaves alone, and the four places that a new entry may be given:
admitted, held, bypassed and left UNGATED (R125 to R128). -/

namespace Sys2Proof.Machine

/-! ### What an arrival leaves alone -/

/-- Between `s` and `t` only the entry in slot `i`, the collections and the episode counts of port `p`, the gates, the
counters of the ADU and the notices may differ. -/
structure AtEntry (p : Port) (i : Slot) (s t : State) : Prop where
  others   : ∀ q, q ≠ p → t.prcAt q = s.prcAt q ∧ t.aduAt q = s.aduAt q
  entries  : ∀ j, j ≠ i → t.rtb.entry? j = s.rtb.entry? j
  port     : { t.prcAt p with episode := (s.prcAt p).episode } = s.prcAt p
  program  : (t.prcAt p).episode.program = (s.prcAt p).episode.program
  index    : (t.prcAt p).episode.stepIndex = (s.prcAt p).episode.stepIndex
  cru      : t.cru = s.cru
  oev      : t.oev = s.oev
  quiet    : Quiet s t

namespace AtEntry

variable {p : Port} {i : Slot} {s t u : State}

theorem refl (p : Port) (i : Slot) (s : State) : AtEntry p i s s :=
  ⟨fun _ _ => ⟨rfl, rfl⟩, fun _ _ => rfl, rfl, rfl, rfl, rfl, rfl, .refl s⟩

theorem trans (h : AtEntry p i s t) (k : AtEntry p i t u) : AtEntry p i s u where
  others q hq := ⟨(k.others q hq).1.trans (h.others q hq).1, (k.others q hq).2.trans (h.others q hq).2⟩
  entries j hj := (k.entries j hj).trans (h.entries j hj)
  port := by
    have := congrArg (fun x : PrcPort => { x with episode := (s.prcAt p).episode }) k.port
    exact this.trans h.port
  program := k.program.trans h.program
  index := k.index.trans h.index
  cru := k.cru.trans h.cru
  oev := k.oev.trans h.oev
  quiet := h.quiet.trans k.quiet

theorem state (h : AtEntry p i s t) : (t.prcAt p).state = (s.prcAt p).state := by rw [← h.port]

theorem currentStep (h : AtEntry p i s t) : t.currentStep p = s.currentStep p := by
  unfold State.currentStep
  simp only [h.quiet.pgs, h.program, h.index]

end AtEntry

section
variable (p : Port) (i : Slot) (s : State)

theorem atEntry_modEntry (f : Entry → Entry) (hf : ∀ e, (f e).fixed = e.fixed) : AtEntry p i s (s.modEntry i f) :=
  ⟨fun _ _ => ⟨rfl, rfl⟩, fun _ hj => Rtb.entry?_modEntry_ne _ f hj, rfl, rfl, rfl, rfl, rfl, quiet_modEntry s i f hf⟩

theorem atEntry_modEpisode (f : Episode → Episode)
    (hf : ∀ e, (f e).program = e.program ∧ (f e).stepIndex = e.stepIndex) : AtEntry p i s (s.modEpisode p f) where
  others q hq := ⟨by rw [State.modEpisode, State.prcAt_modPrc, if_neg hq], rfl⟩
  entries _ _ := rfl
  port := by rw [State.modEpisode, State.prcAt_modPrc_self]
  program := by rw [State.modEpisode, State.prcAt_modPrc_self]; exact (hf _).1
  index := by rw [State.modEpisode, State.prcAt_modPrc_self]; exact (hf _).2
  cru := rfl
  oev := rfl
  quiet := quiet_modEpisode s p f

theorem atEntry_modAdu (f : AduPort → AduPort) : AtEntry p i s (s.modAdu p f) where
  others q hq := ⟨rfl, by rw [State.aduAt_modAdu, if_neg hq]⟩
  entries _ _ := rfl
  port := rfl
  program := rfl
  index := rfl
  cru := rfl
  oev := rfl
  quiet := quiet_modAdu s p f

theorem atEntry_shortages (n : Nat) : AtEntry p i s { s with adu := { s.adu with shortages := n } } :=
  ⟨fun _ _ => ⟨rfl, rfl⟩, fun _ _ => rfl, rfl, rfl, rfl, rfl, rfl, quiet_adu s _⟩

theorem atEntry_bypasses (n : Nat) : AtEntry p i s { s with adu := { s.adu with bypasses := n } } :=
  ⟨fun _ _ => ⟨rfl, rfl⟩, fun _ _ => rfl, rfl, rfl, rfl, rfl, rfl, quiet_adu s _⟩

theorem atEntry_raiseEpisode (c : NoticeClass) (v : Nat) (hc : ¬c.deviceScope) : AtEntry p i s (s.raiseEpisode c p v) :=
  ⟨fun _ _ => ⟨rfl, rfl⟩, fun _ _ => rfl, rfl, rfl, rfl, rfl, rfl, quiet_raiseEpisode s c p v hc⟩

theorem atEntry_takeEntry : AtEntry p i s (takeEntry i s) := atEntry_modEntry p i s _ fun _ => rfl

theorem atEntry_rerate : AtEntry p i s (rerate p s) :=
  ⟨fun _ _ => ⟨rerate_prcAt .., rerate_aduAt ..⟩, fun _ _ => by rw [rerate_rtb], by rw [rerate_prcAt],
    by rw [rerate_prcAt], by rw [rerate_prcAt], rerate_cru .., rerate_oev .., quiet_rerate p s⟩

theorem atEntry_makeUngated : AtEntry p i s (makeUngated p i s) := by
  unfold makeUngated
  dsimp only
  refine AtEntry.trans ?_ (atEntry_raiseEpisode p i _ _ _ (by simp [NoticeClass.deviceScope]))
  refine AtEntry.trans ?_ (atEntry_shortages p i (State.modEpisode p _ _) _)
  refine AtEntry.trans ?_ (atEntry_modEpisode p i _ _ fun _ => ⟨rfl, rfl⟩)
  exact atEntry_modEntry p i s _ fun _ => rfl

theorem atEntry_joinAdmitted (mark : Bool) : AtEntry p i s (joinAdmitted p i mark s) := by
  unfold joinAdmitted
  dsimp only
  refine AtEntry.trans ?_ (atEntry_modEpisode p i _ _ fun _ => ⟨rfl, rfl⟩)
  refine AtEntry.trans ?_ (atEntry_modAdu p i _ _)
  exact atEntry_modEntry p i s _ fun _ => rfl

theorem atEntry_bindGate {mode : GateMode} {r : Resolution} {t : State} (h : bindGate i mode r s = some t) :
    AtEntry p i s t := by
  have hq := quiet_bindGate h
  unfold bindGate at h
  split at h
  · rw [Option.some.injEq] at h
    subst h
    exact ⟨fun _ _ => ⟨rfl, rfl⟩, fun _ hj => Rtb.entry?_modEntry_ne _ _ hj, rfl, rfl, rfl, rfl, rfl, hq⟩
  · cases h

theorem atEntry_freeGateOf : AtEntry p i s (freeGateOf i s) := by
  have hq := quiet_freeGateOf i s
  unfold freeGateOf at hq ⊢
  split
  · exact .refl p i s
  · next r hr =>
    rw [hr] at hq
    exact ⟨fun _ _ => ⟨rfl, rfl⟩, fun _ hj => Rtb.entry?_modEntry_ne _ _ hj, rfl, rfl, rfl, rfl, rfl, hq⟩

theorem atEntry_admitNew : AtEntry p i s (admitNew p i s) := by
  unfold admitNew
  split
  · exact atEntry_makeUngated p i s
  · next t ht => exact (atEntry_bindGate p i s ht).trans (atEntry_joinAdmitted p i t false)

theorem atEntry_hold : AtEntry p i s (hold p i s) := by
  unfold hold
  split
  · exact atEntry_makeUngated p i s
  · next t ht =>
    dsimp only
    refine AtEntry.trans ?_ (atEntry_modAdu p i _ _)
    exact (atEntry_bindGate p i s ht).trans (atEntry_modEntry p i t _ fun _ => rfl)

theorem atEntry_bypass : AtEntry p i s (bypass p i s) := by
  unfold bypass
  dsimp only
  refine AtEntry.trans ?_ (atEntry_raiseEpisode p i _ _ _ (by simp [NoticeClass.deviceScope]))
  refine AtEntry.trans ?_ (atEntry_bypasses p i (State.modEpisode p _ _) _)
  refine AtEntry.trans ?_ (atEntry_modEpisode p i _ _ fun _ => ⟨rfl, rfl⟩)
  refine AtEntry.trans ?_ (atEntry_modEntry p i _ _ fun _ => rfl)
  exact (atEntry_modAdu p i s _).trans (atEntry_freeGateOf p i _)

end

/-! ### The four places -/

theorem State.modAdu_same {s : State} {p : Port} {f : AduPort → AduPort} (h : f (s.aduAt p) = s.aduAt p) :
    s.modAdu p f = s := by
  have : modAt s.adu.port p f = s.adu.port := (modAt_congr s.adu.port p f (fun x => x) h).trans (modAt_id ..)
  simp only [State.modAdu, this]

theorem freeGateOf_of_no_gate {s : State} {i : Slot} {e : Entry} (he : s.rtb.entry? i = some e) (hg : e.gate = none) :
    freeGateOf i s = s := by
  simp [freeGateOf, he, hg]

theorem bindGate_of_no_free {s : State} (i : Slot) (mode : GateMode) (r : Resolution) (hf : s.gpm.free = []) :
    bindGate i mode r s = none := by
  simp [bindGate, hf]

theorem bindGate_of_free {s : State} {i : Slot} {e : Entry} {g : GateNo} {rest : List GateNo} (mode : GateMode)
    (r : Resolution) (hf : s.gpm.free = g :: rest) (he : s.rtb.entry? i = some e) :
    bindGate i mode r s = some { s with
      gpm := s.gpm.bind g rest ⟨e.hash, e.port⟩ mode r
      rtb := s.rtb.modEntry i fun x => { x with gate := some ⟨g, (s.gpm.gate g).epoch + 1⟩ } } := by
  simp [bindGate, hf, he]

section
variable {p : Port} {i : Slot} {s : State} {e : Entry}

/-- An entry without a gate and outside the wait queue is bypassed (R128). -/
theorem bypass_unplaced (he : s.rtb.entry? i = some e) (hg : e.gate = none) (hw : i ∉ (s.aduAt p).waitQ) :
    (bypass p i s).rtb.entry? i = some { e with state := .bypassed, dry := none, overdraft := none } ∧
    (bypass p i s).aduAt p = s.aduAt p ∧
    ((bypass p i s).prcAt p).episode =
      { (s.prcAt p).episode with bypassed := sat32 ((s.prcAt p).episode.bypassed + 1) } ∧
    (bypass p i s).adu.bypasses = sat32 (s.adu.bypasses + 1) ∧ (bypass p i s).gpm = s.gpm ∧
    (bypass p i s).ern = s.ern.raise .bypass (some p) (s.prcAt p).episode.number
      (sat32 ((s.prcAt p).episode.bypassed + 1)) s.stamp := by
  have hsame : (s.modAdu p fun a => { a with waitQ := a.waitQ.erase i }) = s :=
    State.modAdu_same (by rw [List.erase_of_not_mem hw])
  unfold bypass
  rw [hsame, freeGateOf_of_no_gate he hg]
  refine ⟨?_, rfl, ?_, rfl, rfl, ?_⟩
  · exact (Rtb.entry?_modEntry_self ..).trans (by rw [he]; rfl)
  · exact congrArg PrcPort.episode (State.prcAt_modPrc_self ..)
  · have hport := State.prcAt_modPrc_self (s.modEntry i fun e =>
        { e with state := .bypassed, dry := none, overdraft := none }) p
      fun q => { q with episode := { q.episode with bypassed := sat32 (q.episode.bypassed + 1) } }
    exact congrArg (fun q : PrcPort => s.ern.raise .bypass (some p) q.episode.number q.episode.bypassed s.stamp) hport

/-- An entry for which no gate is free is left UNGATED (R127). -/
theorem makeUngated_effects (he : s.rtb.entry? i = some e) :
    (makeUngated p i s).rtb.entry? i = some { e with state := .ungated, gate := none, dry := none, overdraft := none } ∧
    (makeUngated p i s).aduAt p = s.aduAt p ∧
    ((makeUngated p i s).prcAt p).episode =
      { (s.prcAt p).episode with ungated := sat32 ((s.prcAt p).episode.ungated + 1) } ∧
    (makeUngated p i s).adu.shortages = sat32 (s.adu.shortages + 1) ∧ (makeUngated p i s).gpm = s.gpm ∧
    (makeUngated p i s).ern = s.ern.raise .gateShortage (some p) (s.prcAt p).episode.number
      (sat32 ((s.prcAt p).episode.ungated + 1)) s.stamp := by
  unfold makeUngated
  refine ⟨?_, rfl, ?_, rfl, rfl, ?_⟩
  · exact (Rtb.entry?_modEntry_self ..).trans (by rw [he]; rfl)
  · exact congrArg PrcPort.episode (State.prcAt_modPrc_self ..)
  · have hport := State.prcAt_modPrc_self (s.modEntry i fun e =>
        { e with state := .ungated, gate := none, dry := none, overdraft := none }) p
      fun q => { q with episode := { q.episode with ungated := sat32 (q.episode.ungated + 1) } }
    exact congrArg (fun q : PrcPort => s.ern.raise .gateShortage (some p) q.episode.number q.episode.ungated s.stamp)
      hport

theorem admitNew_of_no_free (hf : s.gpm.free = []) : admitNew p i s = makeUngated p i s := by
  unfold admitNew; rw [bindGate_of_no_free _ _ _ hf]

theorem hold_of_no_free (hf : s.gpm.free = []) : hold p i s = makeUngated p i s := by
  unfold hold; rw [bindGate_of_no_free _ _ _ hf]

variable {g : GateNo} {rest : List GateNo}

/-- An entry is admitted with the gate at the head of the free list (R125). -/
theorem admitNew_effects (he : s.rtb.entry? i = some e) (hf : s.gpm.free = g :: rest) :
    (admitNew p i s).rtb.entry? i = some { e with
      gate := some ⟨g, (s.gpm.gate g).epoch + 1⟩, state := .admitted, dry := some true, overdraft := some false } ∧
    (admitNew p i s).aduAt p = { s.aduAt p with admitted := (s.aduAt p).admitted ++ [i] } ∧
    ((admitNew p i s).prcAt p).episode = Episode.admitting 1 (s.prcAt p).episode ∧
    (admitNew p i s).gpm = s.gpm.bind g rest ⟨e.hash, e.port⟩ .shaped (s.currentStep p).res := by
  unfold admitNew
  rw [bindGate_of_free _ _ hf he]
  refine ⟨?_, ?_, ?_, rfl⟩
  · exact (Rtb.entry?_modEntry_self ..).trans (by rw [Rtb.entry?_modEntry_self, he]; rfl)
  · exact State.aduAt_modAdu_self ..
  · exact congrArg PrcPort.episode (State.prcAt_modPrc_self ..)

/-- The place in the queue depends on the bands only. -/
theorem placeInQueue_congr {s t : State} (h : ∀ j, t.bandOf j = s.bandOf j) (i : Slot) (q : List Slot) :
    placeInQueue t i q = placeInQueue s i q := by
  induction q with
  | nil => rfl
  | cons j q ih => simp only [placeInQueue, h, ih]

theorem Quiet.bandOf {s t : State} (h : Quiet s t) (j : Slot) : t.bandOf j = s.bandOf j := by
  have hf := Rtb.entry?_fixed h.fixed j
  unfold State.bandOf
  cases hs : s.rtb.entry? j <;> cases ht : t.rtb.entry? j <;> simp_all [Entry.fixed]

/-- An entry is held with the gate at the head of the free list, at the end of its band (R123, R126). -/
theorem hold_effects (he : s.rtb.entry? i = some e) (hf : s.gpm.free = g :: rest) :
    (hold p i s).rtb.entry? i = some { e with gate := some ⟨g, (s.gpm.gate g).epoch + 1⟩, state := .waiting } ∧
    (hold p i s).aduAt p = { s.aduAt p with waitQ := placeInQueue s i (s.aduAt p).waitQ } ∧
    ((hold p i s).prcAt p).episode = (s.prcAt p).episode ∧
    (hold p i s).gpm = s.gpm.bind g rest ⟨e.hash, e.port⟩ .closed (s.currentStep p).res := by
  have hband := Quiet.bandOf <| (quiet_bindGate (bindGate_of_free .closed (s.currentStep p).res hf he)).trans
    (quiet_modEntry _ i (fun x => { x with state := .waiting }) fun _ => rfl)
  unfold hold
  rw [bindGate_of_free _ _ hf he]
  refine ⟨?_, ?_, rfl, rfl⟩
  · exact (Rtb.entry?_modEntry_self ..).trans (by rw [Rtb.entry?_modEntry_self, he]; rfl)
  · dsimp only
    rw [State.aduAt_modAdu_self, placeInQueue_congr hband]
    rfl

end

/-! ### Places in the wait queue (R123) -/

/-- A joining member stands behind the members of its band and of those before it; in a queue in band order, ahead of
every other member. -/
theorem placeInQueue_split (s : State) (i : Slot) (q : List Slot) :
    ∃ a b, q = a ++ b ∧ placeInQueue s i q = a ++ i :: b ∧ (∀ j ∈ a, s.bandOf j ≤ s.bandOf i) ∧
      (q.Pairwise (fun j k => s.bandOf j ≤ s.bandOf k) → ∀ j ∈ b, s.bandOf i < s.bandOf j) := by
  induction q with
  | nil => exact ⟨[], [], rfl, rfl, nofun, fun _ => nofun⟩
  | cons j q ih =>
    unfold placeInQueue
    split
    · next hlt =>
      refine ⟨[], j :: q, rfl, rfl, nofun, fun hs k hk => ?_⟩
      rw [List.pairwise_cons] at hs
      rcases List.mem_cons.mp hk with rfl | hk
      · exact hlt
      · exact hlt.trans_le (hs.1 k hk)
    · next hge =>
      obtain ⟨a, b, rfl, hplace, ha, hb⟩ := ih
      refine ⟨j :: a, b, rfl, by rw [hplace]; rfl, ?_, fun hs => hb (List.pairwise_cons.mp hs).2⟩
      rintro k (_ | ⟨_, hk⟩)
      · exact not_lt.mp hge
      · exact ha k hk

theorem inBandOrder_pairwise (s : State) (p : Port) (st : EntryState) :
    (s.inBandOrder p st).Pairwise fun j k => s.bandOf j ≤ s.bandOf k := by
  have hband (b : Nat) (j : Slot) (hj : j ∈ (s.rtb.arrival[p]).filter fun i => match s.rtb.entry? i with
      | some e => e.eligible && e.state == st && e.band.val == b
      | none => false) : s.bandOf j = b := by
    have hj := (List.mem_filter.mp hj).2
    unfold State.bandOf
    cases he : s.rtb.entry? j <;> simp_all
  refine List.pairwise_flatMap.mpr ⟨fun b _ => ?_, ?_⟩
  · refine List.pairwise_iff_forall_sublist.mpr fun {j k} h => ?_
    rw [hband b j (h.subset (by simp)), hband b k (h.subset (by simp))]
  · refine List.pairwise_lt_range.imp fun {b c} hbc j hj k hk => ?_
    rw [hband b j hj, hband c k hk]
    exact hbc.le

/-! ### Where an arrival is placed (R130, R131) -/

/-- The refill has nothing to do where the width is reached or no member waits (R132). -/
theorem refill_eq_self {p : Port} {s : State} (h : (s.prcAt p).state = .relief →
    (s.currentStep p).width ≤ s.admittedCount p ∨ (s.aduAt p).waitQ = []) : refill p s = s := by
  unfold refill
  split
  · next hr =>
    rcases h hr with hw | hq
    · generalize (s.aduAt p).waitQ = q
      induction q with
      | nil => rfl
      | cons i q ih => rw [List.foldl_cons, if_neg (not_lt.mpr hw), ih]
    · rw [hq]; rfl
  · rfl

/-- An arrival is admitted at once: in RELIEF with k below W and an empty wait queue (R130). -/
def State.admitsArrival (s : State) (p : Port) : Prop :=
  (s.prcAt p).state = .relief ∧ s.admittedCount p < (s.currentStep p).width ∧ (s.aduAt p).waitQ = []

section
variable {p : Port} {i : Slot} {s : State}

/-- An arrival that is not admitted changes neither k nor the gates of the admitted set. -/
theorem arrive_of_not_admitted {u : State} (hu : placeArrival p i (takeEntry i s) = u)
    (hat : AtEntry p i s u) (hk : (u.aduAt p).admitted = (s.aduAt p).admitted)
    (hfull : (s.prcAt p).state = .relief → (s.currentStep p).width ≤ s.admittedCount p ∨ (u.aduAt p).waitQ = []) :
    arrive p i s = u := by
  have hcount : u.admittedCount p = s.admittedCount p := congrArg List.length hk
  have hrefill : refill p u = u := refill_eq_self (by rw [hat.state, hat.currentStep, hcount]; exact hfull)
  unfold arrive rerateIfChanged
  rw [hu, hrefill, if_pos hcount]

theorem placeArrival_admits (h : s.admitsArrival p) : placeArrival p i s = admitNew p i s := if_pos h

theorem placeArrival_holds (h : ¬s.admitsArrival p) (hq : (s.aduAt p).waitQ.length < 256) :
    placeArrival p i s = hold p i s := (if_neg h).trans (if_pos hq)

theorem placeArrival_bypasses (h : ¬s.admitsArrival p) (hq : 256 ≤ (s.aduAt p).waitQ.length) :
    placeArrival p i s = bypass p i s := (if_neg h).trans (if_neg (by omega))

/-- An arrival that finds no free gate (R127). -/
theorem arrive_ungated {e : Entry} (he : s.rtb.entry? i = some e)
    (hfull : (s.prcAt p).state = .relief → (s.currentStep p).width ≤ s.admittedCount p ∨ (s.aduAt p).waitQ = [])
    (hplace : s.admitsArrival p ∨ (s.aduAt p).waitQ.length < 256) (hf : s.gpm.free = []) :
    arrive p i s = makeUngated p i (takeEntry i s) := by
  have hu : placeArrival p i (takeEntry i s) = makeUngated p i (takeEntry i s) := by
    by_cases ha : s.admitsArrival p
    · exact (placeArrival_admits (s := takeEntry i s) ha).trans (admitNew_of_no_free hf)
    · exact (placeArrival_holds (s := takeEntry i s) ha (hplace.resolve_left ha)).trans (hold_of_no_free hf)
  obtain ⟨_, hadu, _⟩ := makeUngated_effects (p := p) (s := takeEntry i s)
    ((Rtb.entry?_modEntry_self ..).trans (congrArg _ he))
  exact arrive_of_not_admitted hu ((atEntry_takeEntry p i s).trans (atEntry_makeUngated p i _)) (by rw [hadu]; rfl)
    (by rw [hadu]; exact hfull)

/-- The width is reached where an arrival in RELIEF is not admitted. -/
theorem width_reached
    (hfull : (s.prcAt p).state = .relief → (s.currentStep p).width ≤ s.admittedCount p ∨ (s.aduAt p).waitQ = [])
    (ha : ¬s.admitsArrival p) (hr : (s.prcAt p).state = .relief) : (s.currentStep p).width ≤ s.admittedCount p :=
  (hfull hr).elim id fun hq => not_lt.mp fun hlt => ha ⟨hr, hlt, hq⟩

/-- An arrival at a full wait queue (R128). -/
theorem arrive_bypassed {e : Entry} (he : s.rtb.entry? i = some e) (hg : e.gate = none)
    (hout : i ∉ (s.aduAt p).waitQ)
    (hfull : (s.prcAt p).state = .relief → (s.currentStep p).width ≤ s.admittedCount p ∨ (s.aduAt p).waitQ = [])
    (ha : ¬s.admitsArrival p) (hq : 256 ≤ (s.aduAt p).waitQ.length) :
    arrive p i s = bypass p i (takeEntry i s) := by
  obtain ⟨_, hadu, _⟩ := bypass_unplaced (p := p) (s := takeEntry i s)
    ((Rtb.entry?_modEntry_self ..).trans (congrArg _ he)) hg hout
  exact arrive_of_not_admitted (placeArrival_bypasses (s := takeEntry i s) ha hq)
    ((atEntry_takeEntry p i s).trans (atEntry_bypass p i _)) (by rw [hadu]; rfl) (by rw [hadu]; exact hfull)

/-- An arrival that joins the wait queue (R126). -/
theorem arrive_held {e : Entry} {g : GateNo} {rest : List GateNo} (he : s.rtb.entry? i = some e)
    (hf : s.gpm.free = g :: rest)
    (hfull : (s.prcAt p).state = .relief → (s.currentStep p).width ≤ s.admittedCount p ∨ (s.aduAt p).waitQ = [])
    (ha : ¬s.admitsArrival p) (hq : (s.aduAt p).waitQ.length < 256) :
    arrive p i s = hold p i (takeEntry i s) := by
  obtain ⟨_, hadu, _⟩ := hold_effects (p := p) (s := takeEntry i s)
    ((Rtb.entry?_modEntry_self ..).trans (congrArg _ he)) hf
  exact arrive_of_not_admitted (placeArrival_holds (s := takeEntry i s) ha hq)
    ((atEntry_takeEntry p i s).trans (atEntry_hold p i _)) (by rw [hadu]; rfl)
    fun hr => .inl (width_reached hfull ha hr)

/-- An arrival that is admitted raises k, so every admitted gate is re-rated (R125, R133). -/
theorem arrive_admitted {e : Entry} {g : GateNo} {rest : List GateNo} (he : s.rtb.entry? i = some e)
    (hf : s.gpm.free = g :: rest) (ha : s.admitsArrival p) :
    arrive p i s = rerate p (admitNew p i (takeEntry i s)) := by
  obtain ⟨_, hadu, _⟩ := admitNew_effects (p := p) (s := takeEntry i s)
    ((Rtb.entry?_modEntry_self ..).trans (congrArg _ he)) hf
  have hrefill : refill p (admitNew p i (takeEntry i s)) = admitNew p i (takeEntry i s) :=
    refill_eq_self fun _ => .inr (by rw [hadu]; exact ha.2.2)
  have hcount : (admitNew p i (takeEntry i s)).admittedCount p ≠ s.admittedCount p := by
    unfold State.admittedCount
    rw [hadu, List.length_append]
    exact Nat.succ_ne_self _
  unfold arrive rerateIfChanged
  rw [placeArrival_admits (s := takeEntry i s) ha, hrefill, if_neg hcount]

end

end Sys2Proof.Machine
end

section
/-! SUPPORT. The end of an event in which a new entry has arrived at its port, outcome by outcome, with the orders and
the notice it leaves (R125 to R128, R130, R131, R133, R142, R147). -/

namespace Sys2Proof.Machine

/-! ### What the settled arrival leaves alone -/

/-- Only the new entry's port changes, and of its entries only the new one. -/
theorem AtEntry.othersKept {p : Port} {i : Slot} {s u : State} {e : Entry} (h : AtEntry p i s u)
    (he : s.rtb.entry? i = some e) (hp : e.port = p) : OthersKept p s (settle u) := by
  obtain ⟨hothers, hentries, _, _, _, hcru, hoev, hquiet⟩ := h
  refine ⟨fun q hq => ?_, fun j x hx hne => ?_, ?_, ?_, ?_, ?_, ?_, ?_, ?_, ?_⟩
  · obtain ⟨hprc, hadu⟩ := hothers q hq
    simp [hprc, hadu, State.cruAt, State.oevAt, hcru, hoev]
  · have hj : j ≠ i := by
      rintro rfl
      rw [he] at hx
      cases hx
      exact hne hp
    rw [settle_rtb, hentries j hj, hx]
  · rw [settle_prcAt, hquiet.config]
  · rw [settle_rtb, hquiet.ageLimit]
  · rw [settle_rtb, hquiet.rtbCtr]
  · rw [settle_oev, hoev]
  · rw [settle_cmp, hquiet.cmp]
  · rw [settle_pgs, hquiet.pgs]
  · rw [settle_tmb, hquiet.tmb]
  · rw [settle_phase, hquiet.phase]

/-! ### Entries and gates that agree (R39, R140) -/

section
variable {s : State} (h : s.booksOk) (p : Port)
include h

theorem State.booksOk.waiting_entry {j : Slot} (hj : j ∈ (s.aduAt p).waitQ) : ∃ e, s.rtb.entry? j = some e := by
  obtain ⟨e, he, _⟩ := ((h.waiting p).2 j).mp hj
  exact ⟨e, he⟩

/-- An admitted entry holds a SHAPED gate, which is not free. -/
theorem State.booksOk.admitted_gate {j : Slot} (hj : j ∈ (s.aduAt p).admitted) :
    (∃ e, s.rtb.entry? j = some e) ∧
      ∃ g, s.gateOf j = some g ∧ (s.gpm.gate g).mode = .shaped ∧ g ∉ s.gpm.free := by
  obtain ⟨e, he, _, hst⟩ := ((h.admitted p).2 j).mp hj
  obtain ⟨hgate, _⟩ := (h.entries j e he).1
  obtain ⟨r, hr⟩ := Option.isSome_iff_exists.mp (hgate.mpr (by rw [hst]; rfl))
  obtain ⟨hbound, _, hmode⟩ := h.held j e r he hr
  refine ⟨⟨e, he⟩, r.gate, by simp [State.gateOf, he, hr], by rw [hmode, hst]; rfl, fun hfree => ?_⟩
  rw [(h.lists.2.2 r.gate).mp hfree] at hbound
  cases hbound

end

section
variable {s m : State} {i : Slot} (h : s.booksOk) (p : Port) (hi : s.rtb.entry? i = none)
  (hothers : ∀ j, j ≠ i → m.rtb.entry? j = s.rtb.entry? j)
include h hi

theorem State.booksOk.not_waiting_of_empty : i ∉ (s.aduAt p).waitQ := fun hw => by
  obtain ⟨e, he⟩ := h.waiting_entry p hw
  exact nomatch hi.symm.trans he

include hothers

/-- With an entry put into an empty slot, the admitted entries go on holding their gates. -/
theorem State.booksOk.admitted_gate_beside {j : Slot} (hj : j ∈ (s.aduAt p).admitted) :
    j ≠ i ∧ ∃ g, m.gateOf j = some g ∧ (s.gpm.gate g).mode = .shaped ∧ g ∉ s.gpm.free := by
  obtain ⟨⟨e, he⟩, g, hg, hmode, hfree⟩ := h.admitted_gate p hj
  have hji : j ≠ i := by rintro rfl; exact nomatch hi.symm.trans he
  exact ⟨hji, g, by rw [State.gateOf, hothers j hji]; exact hg, hmode, hfree⟩

/-- An entry put into an empty slot joins the wait queue behind the members of its band and of those before it; in a
queue in band order, ahead of every other member (R123). -/
theorem State.booksOk.joins_at_band_end {e : Entry} (he : m.rtb.entry? i = some e) :
    ∃ a b, (s.aduAt p).waitQ = a ++ b ∧ placeInQueue m i (s.aduAt p).waitQ = a ++ i :: b ∧
      (∀ j ∈ a, ∃ x, s.rtb.entry? j = some x ∧ x.band ≤ e.band) ∧
      (s.queuesOk → ∀ j ∈ b, ∃ x, s.rtb.entry? j = some x ∧ e.band < x.band) := by
  obtain ⟨a, b, hsplit, hplaced, hbefore, hbehind⟩ := placeInQueue_split m i (s.aduAt p).waitQ
  have hsame (j : Slot) (hj : j ∈ (s.aduAt p).waitQ) : m.bandOf j = s.bandOf j := by
    have hji : j ≠ i := by rintro rfl; exact h.not_waiting_of_empty p hi hj
    rw [State.bandOf, hothers j hji, State.bandOf]
  have hband (j : Slot) (hj : j ∈ (s.aduAt p).waitQ) : ∃ x, s.rtb.entry? j = some x ∧ m.bandOf j = x.band.val := by
    obtain ⟨x, hx⟩ := h.waiting_entry p hj
    exact ⟨x, hx, by rw [hsame j hj, State.bandOf, hx]⟩
  have hnew : m.bandOf i = e.band.val := by rw [State.bandOf, he]
  refine ⟨a, b, hsplit, hplaced, fun j hj => ?_, fun hq j hj => ?_⟩
  · obtain ⟨x, hx, hxb⟩ := hband j (hsplit ▸ List.mem_append_left b hj)
    exact ⟨x, hx, Fin.le_def.mpr (hxb ▸ hnew ▸ hbefore j hj)⟩
  · obtain ⟨x, hx, hxb⟩ := hband j (hsplit ▸ List.mem_append_right a hj)
    have hsorted : (s.aduAt p).waitQ.Pairwise fun j k => s.bandOf j ≤ s.bandOf k :=
      hq.order p ▸ inBandOrder_pairwise s p .waiting
    have hsortedm : (s.aduAt p).waitQ.Pairwise fun j k => m.bandOf j ≤ m.bandOf k :=
      hsorted.imp_of_mem fun hj hk hle => by rwa [hsame _ hj, hsame _ hk]
    exact ⟨x, hx, Fin.lt_def.mpr (hxb ▸ hnew ▸ hbehind hsortedm j hj)⟩

end

/-! ### The outcomes of an arrival -/

/-- An entry as a Sighting creates it: without a gate, and with no bytes granted. -/
structure Entry.Fresh (e : Entry) : Prop where
  gate      : e.gate = none
  dry       : e.dry = none
  overdraft : e.overdraft = none
  granted   : e.granted = 0

theorem Entry.Fresh.bypassed {e : Entry} (h : e.Fresh) :
    { e with state := .bypassed, dry := none, overdraft := none } = { e with state := EntryState.bypassed } := by
  simp [h.dry, h.overdraft]

theorem Entry.Fresh.ungated {e : Entry} (h : e.Fresh) :
    { e with state := .ungated, gate := none, dry := none, overdraft := none } =
      { e with state := EntryState.ungated } := by
  simp [h.gate, h.dry, h.overdraft]

section
variable {p : Port} {i : Slot} {s : State} {e : Entry} (he : s.rtb.entry? i = some e) (hnew : e.Fresh)
  (hfull : (s.prcAt p).state = .relief → (s.currentStep p).width ≤ s.admittedCount p ∨ (s.aduAt p).waitQ = [])
  (hout : i ∉ (s.aduAt p).waitQ)

include he hnew in
theorem takeEntry_fresh : (takeEntry i s).rtb.entry? i = some e := by
  refine (Rtb.entry?_modEntry_self ..).trans ?_
  rw [he, Option.map_some, ← hnew.granted]

include he hnew hfull hout

/-- Whatever place it is given, an arrival changes no other entry and no other port, and the changed gates are in the
FIFO. -/
theorem arrive_keeps : AtEntry p i s (arrive p i s) ∧ s.gpm.Enqueued (arrive p i s).gpm := by
  have htake := takeEntry_fresh he hnew
  have hat := atEntry_takeEntry p i s
  by_cases hb : ¬s.admitsArrival p ∧ 256 ≤ (s.aduAt p).waitQ.length
  · obtain ⟨_, _, _, _, hgpm, _⟩ := bypass_unplaced (p := p) htake hnew.gate hout
    rw [arrive_bypassed he hnew.gate hout hfull hb.1 hb.2, hgpm]
    exact ⟨hat.trans (atEntry_bypass p i _), .refl _⟩
  · have hplace : s.admitsArrival p ∨ (s.aduAt p).waitQ.length < 256 := by
      rwa [not_and_or, not_not, not_le] at hb
    cases hf : s.gpm.free with
    | nil =>
      obtain ⟨_, _, _, _, hgpm, _⟩ := makeUngated_effects (p := p) htake
      rw [arrive_ungated he hfull hplace hf, hgpm]
      exact ⟨hat.trans (atEntry_makeUngated p i _), .refl _⟩
    | cons g rest =>
      by_cases ha : s.admitsArrival p
      · obtain ⟨_, _, _, hgpm⟩ := admitNew_effects (p := p) htake hf
        rw [arrive_admitted he hf ha]
        refine ⟨(hat.trans (atEntry_admitNew p i _)).trans (atEntry_rerate p i _), ?_⟩
        refine Gpm.Enqueued.trans (by rw [hgpm]; exact Gpm.bind_enqueued ..) (rerate_enqueued p _) fun k hk hs => ?_
        obtain ⟨hepoch, _⟩ := hs
        rw [(rerate_gate_keeps p _ k).1, hgpm, Gpm.bind_gate] at hepoch
        rw [hgpm, Gpm.bind_gate] at hk
        split at hepoch
        · next hkg => subst hkg; exact epoch_succ_ne _ hepoch
        · next hkg => rw [if_neg hkg] at hk; exact hk (.refl _)
      · obtain ⟨_, _, _, hgpm⟩ := hold_effects (p := p) htake hf
        rw [arrive_held he hf hfull ha (hplace.resolve_left ha), hgpm]
        exact ⟨hat.trans (atEntry_hold p i _), Gpm.bind_enqueued ..⟩

/-- The wait queue is full: the entry is bypassed (R128, R130, R131). -/
theorem arrive_bypassed_settled (hlink : s.flc.link = .up) (ha : ¬s.admitsArrival p)
    (hq : 256 ≤ (s.aduAt p).waitQ.length) :
    (settle (arrive p i s)).rtb.entry? i = some { e with state := .bypassed } ∧
    (settle (arrive p i s)).aduAt p = s.aduAt p ∧
    ((settle (arrive p i s)).prcAt p).episode =
      { (s.prcAt p).episode with bypassed := sat32 ((s.prcAt p).episode.bypassed + 1) } ∧
    (settle (arrive p i s)).adu.bypasses = sat32 (s.adu.bypasses + 1) ∧
    (settle (arrive p i s)).gpm.free = s.gpm.free ∧
    (settle (arrive p i s)).announces .bypass (some p) (s.prcAt p).episode.number
      (sat32 ((s.prcAt p).episode.bypassed + 1)) s.stamp := by
  obtain ⟨hat, _⟩ := arrive_keeps he hnew hfull hout
  have hnostop : (arrive p i s).flc.link ≠ .stopping := by rw [hat.quiet.flc, hlink]; decide
  obtain ⟨hentry, hadu, hep, hcount, hgpm, hern⟩ :=
    bypass_unplaced (p := p) (takeEntry_fresh he hnew) hnew.gate hout
  rw [← arrive_bypassed he hnew.gate hout hfull ha hq] at hentry hadu hep hcount hgpm hern
  rw [settle_rtb, settle_aduAt, settle_prcAt, settle_adu, settle_free, hgpm]
  exact ⟨hentry.trans (congrArg some hnew.bypassed), hadu, hep, hcount, rfl, announces_settle hnostop hern⟩

/-- No gate is free: the entry is left UNGATED (R127). -/
theorem arrive_ungated_settled (hlink : s.flc.link = .up)
    (hplace : s.admitsArrival p ∨ (s.aduAt p).waitQ.length < 256) (hf : s.gpm.free = []) :
    (settle (arrive p i s)).rtb.entry? i = some { e with state := .ungated } ∧
    (settle (arrive p i s)).aduAt p = s.aduAt p ∧
    ((settle (arrive p i s)).prcAt p).episode =
      { (s.prcAt p).episode with ungated := sat32 ((s.prcAt p).episode.ungated + 1) } ∧
    (settle (arrive p i s)).adu.shortages = sat32 (s.adu.shortages + 1) ∧
    (settle (arrive p i s)).announces .gateShortage (some p) (s.prcAt p).episode.number
      (sat32 ((s.prcAt p).episode.ungated + 1)) s.stamp := by
  obtain ⟨hat, _⟩ := arrive_keeps he hnew hfull hout
  have hnostop : (arrive p i s).flc.link ≠ .stopping := by rw [hat.quiet.flc, hlink]; decide
  obtain ⟨hentry, hadu, hep, hcount, _, hern⟩ := makeUngated_effects (p := p) (takeEntry_fresh he hnew)
  rw [← arrive_ungated he hfull hplace hf] at hentry hadu hep hcount hern
  rw [settle_rtb, settle_aduAt, settle_prcAt, settle_adu]
  exact ⟨hentry.trans (congrArg some hnew.ungated), hadu, hep, hcount, announces_settle hnostop hern⟩

omit hout in
/-- The entry is held at the end of its band, its gate bound CLOSED (R126). -/
theorem arrive_held_settled {g : GateNo} {rest : List GateNo} (hf : s.gpm.free = g :: rest)
    (ha : ¬s.admitsArrival p) (hq : (s.aduAt p).waitQ.length < 256) :
    let t := settle (arrive p i s)
    (t.gpm.free = rest ∧ (t.gpm.gate g).bound = some ⟨e.hash, e.port⟩ ∧
      (t.gpm.gate g).epoch = (s.gpm.gate g).epoch + 1 ∧ (t.gpm.gate g).mode = .closed) ∧
    t.rtb.entry? i = some { e with gate := some ⟨g, (s.gpm.gate g).epoch + 1⟩, state := .waiting } ∧
    t.aduAt p = { s.aduAt p with waitQ := placeInQueue s i (s.aduAt p).waitQ } ∧
    (t.prcAt p).episode = (s.prcAt p).episode := by
  obtain ⟨hentry, hadu, hep, hgpm⟩ := hold_effects (p := p) (takeEntry_fresh he hnew) hf
  rw [placeInQueue_congr (quiet_takeEntry i s).bandOf] at hadu
  rw [← arrive_held he hf hfull ha hq] at hentry hadu hep hgpm
  obtain ⟨hepoch, hbound, hmode, _⟩ := settle_sameWanted (arrive p i s) g
  rw [hgpm, Gpm.bind_gate, if_pos rfl] at hepoch hbound hmode
  dsimp only
  rw [settle_free, settle_rtb, settle_aduAt, settle_prcAt, hgpm, Gpm.bind_free]
  exact ⟨⟨rfl, hbound, hepoch, hmode⟩, hentry, hadu, hep⟩

omit hfull hout in
/-- The entry is admitted, its gate bound SHAPED, and every admitted gate has the divisor for the new k (R125, R133). -/
theorem arrive_admitted_settled {g : GateNo} {rest : List GateNo} (hf : s.gpm.free = g :: rest)
    (ha : s.admitsArrival p) (hshaped : ∀ j ∈ (s.aduAt p).admitted, j ≠ i ∧
      ∃ k, s.gateOf j = some k ∧ (s.gpm.gate k).mode = .shaped ∧ k ≠ g) :
    let t := settle (arrive p i s)
    (t.gpm.free = rest ∧ (t.gpm.gate g).bound = some ⟨e.hash, e.port⟩ ∧
      (t.gpm.gate g).epoch = (s.gpm.gate g).epoch + 1) ∧
    t.rtb.entry? i = some { e with
      gate := some ⟨g, (s.gpm.gate g).epoch + 1⟩, state := .admitted, dry := some true, overdraft := some false } ∧
    t.aduAt p = ⟨[], (s.aduAt p).admitted ++ [i]⟩ ∧
    (t.prcAt p).episode = Episode.admitting 1 (s.prcAt p).episode ∧ t.rated p := by
  have hat := (atEntry_takeEntry p i s).trans (atEntry_admitNew p i _)
  obtain ⟨hentry, hadu, hep, hgpm⟩ := admitNew_effects (p := p) (takeEntry_fresh he hnew) hf
  rw [arrive_admitted he hf ha]
  generalize admitNew p i (takeEntry i s) = u at hat hentry hadu hep hgpm
  have haduEq : u.aduAt p = ⟨[], (s.aduAt p).admitted ++ [i]⟩ := by
    rw [hadu]
    exact congrArg (AduPort.mk · _) ha.2.2
  have hgates : ∀ j ∈ (u.aduAt p).admitted, ∃ k, u.gateOf j = some k ∧ (u.gpm.gate k).mode = .shaped := by
    intro j hj
    rw [haduEq, List.mem_append, List.mem_singleton] at hj
    rcases hj with hj | rfl
    · obtain ⟨hji, k, hk, hmode, hkg⟩ := hshaped j hj
      refine ⟨k, ?_, by rw [hgpm, Gpm.bind_gate, if_neg hkg]; exact hmode⟩
      rw [State.gateOf, hat.entries j hji]
      exact hk
    · exact ⟨g, by rw [State.gateOf, hentry]; rfl, by rw [hgpm, Gpm.bind_gate, if_pos rfl]⟩
  obtain ⟨hepoch, hbound, _⟩ := settle_sameWanted (rerate p u) g
  obtain ⟨rep, rbo, _⟩ := rerate_gate_keeps p u g
  rw [rep, hgpm, Gpm.bind_gate, if_pos rfl] at hepoch
  rw [rbo, hgpm, Gpm.bind_gate, if_pos rfl] at hbound
  dsimp only
  rw [settle_free, rerate_free, settle_rtb, rerate_rtb, settle_aduAt, rerate_aduAt, settle_prcAt, rerate_prcAt, hgpm,
    Gpm.bind_free]
  exact ⟨⟨rfl, hbound, hepoch⟩, hentry, haduEq, hep, rated_settle_rerate hgates⟩

end

end Sys2Proof.Machine
end

section
/-! SUPPORT. A Sighting refreshes its entry, or creates one that may be an arrival (R44 to R46, R125 to R131). -/

namespace Sys2Proof.Proofs

open Sys2Proof Sys2Proof.Machine

section
variable {s : State} {h : BitVec 32} {p : Port} {ing : BitVec 6} {srv : BitVec 16} {i : Slot}
  (ht : TakesRecord s (.sighting h p ing srv))
include ht

/-- A refresh leaves both transmitters at rest (R44). -/
theorem exec_sighting_refreshes {e : Entry} (hs : s.settled) (hl : s.rtb.lookup h p = some (i, e)) :
    exec (.sighting h p ing srv) s = .next (refresh i (s.withoutRecord (.sighting h p ing srv))) := by
  have hrest : (refresh i (s.withoutRecord (.sighting h p ing srv))).settled := hs
  rw [exec_sighting_taken ht, takeSighting_known _ _ _ _ _ (s.withoutRecord _) hl, settle_eq_of_settled hrest]

variable (hl : s.rtb.lookup h p = none) (hn : s.rtb.table.length < 2048) (hi : s.rtb.entry? i = none)
  (hlow : ∀ j, j < i → s.rtb.entry? j ≠ none)
include hl hn hi hlow

/-- A new entry that is no arrival and opens no episode leaves both transmitters at rest (R45). -/
theorem exec_sighting_creates (hs : s.settled)
    (hq : (s.created h p ing srv).eligible = false ∨ ((s.prcAt p).state ≠ .relief ∧ (s.prcAt p).state ≠ .paused ∧
      ((s.prcAt p).state = .watch → (s.prcAt p).qualified = false ∨ s.fanIn p + 1 < (s.prcAt p).config.fanIn ∨
        s.pgs.programs[(s.prcAt p).config.program] = []))) :
    exec (.sighting h p ing srv) s =
      .next (createEntry i h p ing srv (s.withoutRecord (.sighting h p ing srv))) := by
  have hrest : (createEntry i h p ing srv (s.withoutRecord (.sighting h p ing srv))).settled := hs
  rw [exec_sighting_taken ht, takeSighting_new _ _ _ _ (s.withoutRecord _) hl hn,
    learn_only_creates i _ _ _ _ (s.withoutRecord _) hi hlow hq, settle_eq_of_settled hrest]

/-- A new eligible entry of a port in RELIEF or PAUSED arrives (R46). -/
theorem exec_sighting_arrives (hel : (s.created h p ing srv).eligible = true)
    (hst : (s.prcAt p).state = .relief ∨ (s.prcAt p).state = .paused) :
    exec (.sighting h p ing srv) s =
      .next (settle (arrive p i (createEntry i h p ing srv (s.withoutRecord (.sighting h p ing srv))))) := by
  rw [exec_sighting_taken ht, takeSighting_new _ _ _ _ (s.withoutRecord _) hl hn,
    learn_arrives i _ _ _ _ (s.withoutRecord _) hi hlow hel hst]

end

/-- A created entry is fresh. -/
theorem created_fresh (h : BitVec 32) (p : Port) (ing : BitVec 6) (srv : BitVec 16) (s : State) :
    (s.created h p ing srv).Fresh := ⟨rfl, rfl, rfl, rfl⟩

/-- The entry that a Sighting creates, under the class that decides (R45, R62). -/
theorem created_eq {s : State} {srv : BitVec 16} {cls : Fin 9} {c : ClassParams} (hd : s.cmp.Decides srv cls c)
    (h : BitVec 32) (p : Port) (ing : BitVec 6) : s.created h p ing srv =
      ⟨h, p, ing, srv, cls, c.eligible, c.band, c.cap, .seen, none, none, none, 0, none, s.now, s.now⟩ := by
  obtain ⟨hcls, hc⟩ := hd.classOf
  simp only [State.created, newEntry, hcls, hc]

/-- Settles O35: by cases of the Sighting, and for an arrival by its outcome. -/
theorem sightingRefreshesOrCreates : Obligations.SightingRefreshesOrCreates := by
  unfold Obligations.SightingRefreshesOrCreates
  refine ⟨fun s h p ing srv i e ht hs hl => exec_sighting_refreshes ht hs hl, ?_⟩
  intro s h p ing srv i cls c ht hl hn hi hlow hd r e q
  have hcreated : s.created h p ing srv = e := created_eq hd h p ing
  have hm : EntryCreated i e r (createEntry i h p ing srv r) := hcreated ▸ createEntry_created i h p ing srv r hi
  refine ⟨fun hs hq => ⟨_, exec_sighting_creates ht hl hn hi hlow hs (by rw [hcreated]; exact hq), hm⟩, ?_⟩
  intro hbooks hel hst hwidth
  have hexec := exec_sighting_arrives ht hl hn hi hlow (hcreated ▸ hel) hst
  set m := createEntry i h p ing srv r
  have hnew : e.Fresh := hcreated ▸ created_fresh h p ing srv s
  have hout : i ∉ (m.aduAt p).waitQ := hbooks.not_waiting_of_empty p hi
  have hlink : m.flc.link = .up := ht.2.1
  obtain ⟨hkeeps, hqueued⟩ := arrive_keeps hm.slot hnew hwidth hout
  refine ⟨m, _, hexec, hm, hkeeps.othersKept hm.slot rfl,
    fun j hj => by rw [settle_rtb, hkeeps.entries j hj]; exact hm.others j hj, by rw [settle_cru]; exact hkeeps.cru,
    by rw [settle_oev]; exact hkeeps.oev, by rw [settle_prcAt]; exact hkeeps.port,
    ordersMade_settle (by rw [hkeeps.quiet.flc]; exact ⟨rfl, rfl, rfl⟩) hqueued, ?_⟩
  intro enters
  by_cases hfull : ¬enters ∧ 256 ≤ (s.aduAt p).waitQ.length
  · rw [if_pos hfull]
    exact arrive_bypassed_settled hm.slot hnew hwidth hout hlink hfull.1 hfull.2
  · rw [if_neg hfull]
    have hplace : enters ∨ (s.aduAt p).waitQ.length < 256 := by rwa [not_and_or, not_not, not_le] at hfull
    cases hf : s.gpm.free with
    | nil =>
      rw [if_pos rfl]
      exact arrive_ungated_settled hm.slot hnew hwidth hout hlink hplace hf
    | cons g rest =>
      rw [if_neg (List.cons_ne_nil g rest)]
      by_cases ha : enters
      · have hshaped : ∀ j ∈ (m.aduAt p).admitted, j ≠ i ∧
            ∃ k, m.gateOf j = some k ∧ (m.gpm.gate k).mode = .shaped ∧ k ≠ g := by
          intro j hj
          obtain ⟨hji, k, hk, hmode, hfree⟩ := hbooks.admitted_gate_beside p hi hm.others hj
          exact ⟨hji, k, hk, hmode, by rintro rfl; exact hfree (hf ▸ List.mem_cons_self ..)⟩
        obtain ⟨⟨hrest, hbound, hepoch⟩, hentry, hadu, hep, hrated⟩ :=
          arrive_admitted_settled hm.slot hnew hf ha hshaped
        refine ⟨g, rest, rfl, hrest, hbound, hepoch, ?_⟩
        intro f
        rw [if_pos ha]
        exact ⟨hentry, hadu, hep, hrated⟩
      · obtain ⟨⟨hrest, hbound, hepoch, hmode⟩, hentry, hadu, hep⟩ :=
          arrive_held_settled hm.slot hnew hwidth hf ha (hplace.resolve_left ha)
        refine ⟨g, rest, rfl, hrest, hbound, hepoch, ?_⟩
        intro f
        rw [if_neg ha]
        refine ⟨hentry, hmode, by rw [hadu]; rfl, hep, ?_⟩
        rw [hadu]
        exact hbooks.joins_at_band_end p hi hm.others hm.slot

end Sys2Proof.Proofs
end

section
/-! SUPPORT. A Sighting of a new key on a full table evicts the oldest SEEN entry or is lost (R47, R48). -/

namespace Sys2Proof.Machine

/-! ### The slot to evict (R47) -/

/-- `x` is the SEEN entry of greatest age, the lowest slot among equals. -/
def IsOldestSeen (now : Nat) (l : List (Slot × Entry)) (x : Slot × Entry) : Prop :=
  x ∈ l ∧ x.2.state = .seen ∧ ∀ y ∈ l, y.2.state = .seen →
    y.2.age now < x.2.age now ∨ (y.2.age now = x.2.age now ∧ x.1 ≤ y.1)

theorem oldestSeen_eq_none {now : Nat} {l : List (Slot × Entry)} :
    oldestSeen now l = none ↔ ∀ x ∈ l, x.2.state ≠ .seen := by
  induction l with
  | nil => simp [oldestSeen]
  | cons x l ih =>
    unfold oldestSeen
    cases ho : oldestSeen now l with
    | none =>
      have hl := ih.mp ho
      simp only [ite_eq_right_iff, reduceCtorEq, imp_false, List.forall_mem_cons]
      exact ⟨fun hx => ⟨hx, hl⟩, And.left⟩
    | some y =>
      have hsome : ¬∀ z ∈ l, z.2.state ≠ .seen := fun h => nomatch ho.symm.trans (ih.mpr h)
      refine iff_of_false (by dsimp only; split <;> simp) fun h => hsome fun z hz => h z (List.mem_cons_of_mem _ hz)

/-- In rising slot order the entry found is the oldest, the lowest slot among equals. -/
theorem oldestSeen_isOldest {now : Nat} {l : List (Slot × Entry)} {x : Slot × Entry}
    (hl : l.Pairwise fun a b => a.1 < b.1) (h : oldestSeen now l = some x) : IsOldestSeen now l x := by
  induction l generalizing x with
  | nil => cases h
  | cons a l ih =>
    obtain ⟨hbelow, hrest⟩ := List.pairwise_cons.mp hl
    unfold oldestSeen at h
    cases ho : oldestSeen now l with
    | none =>
      rw [ho] at h
      obtain ⟨hseen, hax⟩ := Option.ite_none_right_eq_some.mp h
      cases hax
      refine ⟨List.mem_cons_self .., hseen, fun y hy hys => ?_⟩
      rcases List.mem_cons.mp hy with rfl | hy
      · exact .inr ⟨rfl, le_refl _⟩
      · exact absurd hys (oldestSeen_eq_none.mp ho y hy)
    | some b =>
      rw [ho] at h
      obtain ⟨hbmem, hbseen, hbmax⟩ := ih hrest ho
      by_cases ha : a.2.state = .seen ∧ b.2.age now ≤ a.2.age now
      · obtain rfl : a = x := by simpa [ha] using h
        refine ⟨List.mem_cons_self .., ha.1, fun y hy hys => ?_⟩
        rcases List.mem_cons.mp hy with rfl | hy
        · exact .inr ⟨rfl, le_refl _⟩
        · have := hbelow y hy
          rcases hbmax y hy hys with hlt | ⟨heq, _⟩
          · exact .inl (by omega)
          · rcases Nat.lt_or_eq_of_le ha.2 with hlt | hab
            · exact .inl (by omega)
            · exact .inr ⟨by omega, this.le⟩
      · obtain rfl : b = x := by simpa [ha] using h
        refine ⟨List.mem_cons_of_mem _ hbmem, hbseen, fun y hy hys => ?_⟩
        rcases List.mem_cons.mp hy with rfl | hy
        · exact .inl (not_le.mp fun hle => ha ⟨hys, hle⟩)
        · exact hbmax y hy hys

/-- No two slots hold an oldest entry. -/
theorem IsOldestSeen.unique {now : Nat} {l : List (Slot × Entry)} {x y : Slot × Entry}
    (hl : l.Pairwise fun a b => a.1 < b.1) (hx : IsOldestSeen now l x) (hy : IsOldestSeen now l y) : x = y := by
  obtain ⟨hxm, hxs, hxmax⟩ := hx
  obtain ⟨hym, hys, hymax⟩ := hy
  have hslot : x.1 = y.1 := by
    rcases hxmax y hym hys with h1 | ⟨_, h1⟩ <;> rcases hymax x hxm hxs with h2 | ⟨_, h2⟩
    · omega
    · omega
    · omega
    · exact le_antisymm h1 h2
  have hinj : (l.map (·.1)).Nodup := List.pairwise_map.mpr (hl.imp ne_of_lt)
  exact List.inj_on_of_nodup_map hinj hxm hym hslot

theorem oldestSeen_eq_some {now : Nat} {l : List (Slot × Entry)} {x : Slot × Entry}
    (hl : l.Pairwise fun a b => a.1 < b.1) : oldestSeen now l = some x ↔ IsOldestSeen now l x := by
  refine ⟨oldestSeen_isOldest hl, fun hx => ?_⟩
  cases ho : oldestSeen now l with
  | none => exact absurd hx.2.1 (oldestSeen_eq_none.mp ho x hx.1)
  | some y => rw [hx.unique hl (oldestSeen_isOldest hl ho)]

/-! ### The table without the evicted entry -/

/-- One element of a table after a change of one, read off the element's own old value. -/
theorem modAt_get_at {α : Type} {n : Nat} (v : Vector α n) (i j : Fin n) (f : α → α) :
    (modAt v i f)[j] = if j = i then f v[j] else v[j] := by
  rw [modAt_get]
  split
  · next h => rw [h]
  · rfl

/-- The Responder Table after an eviction (R43, R47). -/
def Rtb.evicted (r : Rtb) (x : Slot × Entry) : Rtb := { r with
  table := r.table.filter fun y => y.1 ≠ x.1
  arrival := modAt r.arrival x.2.port fun l => l.erase x.1
  ctr := { r.ctr with evictions := sat32 (r.ctr.evictions + 1) } }

theorem Rtb.ok.slots_rise {r : Rtb} (hr : r.ok) : r.table.Pairwise fun a b => a.1 < b.1 := hr.1.imp And.left

theorem Rtb.ok.slots_nodup {r : Rtb} (hr : r.ok) : (r.table.map (·.1)).Nodup :=
  List.pairwise_map.mpr (hr.slots_rise.imp ne_of_lt)

theorem Rtb.evicted_entry? (r : Rtb) (x : Slot × Entry) (j : Slot) :
    (r.evicted x).entry? j = if j = x.1 then none else r.entry? j := by
  split
  · next h =>
    subst h
    exact Rtb.entry?_eq_none_iff.mpr fun y hy => by simpa using (List.mem_filter.mp hy).2
  · next h =>
    unfold Rtb.entry? Rtb.evicted
    rw [List.find?_filter]
    congr 2
    funext y
    by_cases hy : y.1 = j
    · simp [hy, h]
    · simp [hy]

/-- A key that is not in the table is not in it after an eviction. -/
theorem Rtb.evicted_lookup {r : Rtb} (x : Slot × Entry) {h : BitVec 32} {p : Port} (hl : r.lookup h p = none) :
    (r.evicted x).lookup h p = none := by
  unfold Rtb.lookup at *
  exact List.find?_eq_none.mpr fun y hy => List.find?_eq_none.mp hl y (List.mem_of_mem_filter hy)

section
variable {r : Rtb} {x : Slot × Entry} (hr : r.ok) (hx : x ∈ r.table)
include hr

theorem Rtb.ok.length_le : r.table.length ≤ 2048 := by
  simpa using hr.slots_nodup.length_le_card

/-- A full table has an entry in every slot (R38). -/
theorem Rtb.ok.full (hn : 2048 ≤ r.table.length) (j : Slot) : r.entry? j ≠ none := fun hj => by
  have hcons : (j :: r.table.map (·.1)).Nodup := List.nodup_cons.mpr ⟨fun hm => by
    obtain ⟨y, hy, rfl⟩ := List.mem_map.mp hm
    exact Rtb.entry?_eq_none_iff.mp hj y hy rfl, hr.slots_nodup⟩
  have := hcons.length_le_card
  rw [List.length_cons, List.length_map, Fintype.card_fin] at this
  omega

include hx

theorem Rtb.ok.evicted_length : (r.evicted x).table.length < 2048 := by
  have hlt : (r.table.filter fun y => y.1 ≠ x.1).length < r.table.length :=
    List.length_filter_lt_length_iff_exists.mpr ⟨x, hx, by simp⟩
  exact hlt.trans_le hr.length_le

end

theorem evict_eq {s : State} {x : Slot × Entry} (hr : s.rtb.ok) (hx : x ∈ s.rtb.table) :
    evict x.1 s = { s with rtb := s.rtb.evicted x } := by
  have he := Rtb.entry?_of_mem hr.slots_rise hx
  simp only [evict, State.removeEntry, State.modRtbCtr, Rtb.remove, he, Rtb.evicted]

/-! ### The Sighting on a full table -/

section
variable {s : State} {h : BitVec 32} {p : Port} {ing : BitVec 6} {srv : BitVec 16} {x : Slot × Entry}
  (ht : TakesRecord s (.sighting h p ing srv)) (hr : s.rtb.ok) (hl : s.rtb.lookup h p = none)
  (hn : 2048 ≤ s.rtb.table.length) (hx : oldestSeen s.now s.rtb.table = some x)
include ht hr hl hn hx

/-- The Sighting acts as on the table without the evicted entry (R47). -/
theorem exec_sighting_evicts :
    exec (.sighting h p ing srv) s = exec (.sighting h p ing srv) { s with rtb := s.rtb.evicted x } := by
  obtain ⟨hmem, _, _⟩ := oldestSeen_isOldest hr.slots_rise hx
  have hfew := takeSighting_new h p ing srv
    (State.withoutRecord (.sighting h p ing srv) { s with rtb := s.rtb.evicted x })
    (Rtb.evicted_lookup x hl) (hr.evicted_length hmem)
  rw [exec_sighting_taken ht, exec_sighting_taken (s := { s with rtb := s.rtb.evicted x }) ht, hfew,
    takeSighting_evicts x.1 h p ing srv (s.withoutRecord _) hl hn hx,
    evict_eq (s := s.withoutRecord _) hr hmem]
  rfl

end

end Sys2Proof.Machine

namespace Sys2Proof.Proofs

open Sys2Proof Sys2Proof.Machine

/-- The new entry takes the slot of the evicted one. -/
theorem evicted_slot_is_lowest {r : Rtb} {x : Slot × Entry} (hr : r.ok) (hn : 2048 ≤ r.table.length) :
    (r.evicted x).entry? x.1 = none ∧ ∀ j, j < x.1 → (r.evicted x).entry? j ≠ none := by
  refine ⟨by rw [Rtb.evicted_entry?, if_pos rfl], fun j hj => ?_⟩
  rw [Rtb.evicted_entry?, if_neg hj.ne]
  exact hr.full hn j

/-- Settles O36: the eviction reduces the Sighting to one on a table with one empty slot. -/
theorem fullTableEvictsOrLoses : Obligations.FullTableEvictsOrLoses := by
  unfold Obligations.FullTableEvictsOrLoses
  refine ⟨fun now l x hl => oldestSeen_eq_some hl, fun s h p ing srv x ht hr hl hn hx => ?_,
    fun s h p ing srv ht hs hl hn hno => ?_⟩
  · have hevict := exec_sighting_evicts ht hr hl hn hx
    refine ⟨hevict, fun hs hep hq => ?_⟩
    obtain ⟨hmem, _, _⟩ := oldestSeen_isOldest hr.slots_rise hx
    obtain ⟨hempty, hlow⟩ := evicted_slot_is_lowest (x := x) hr hn
    have hrel : (s.prcAt p).state ≠ .relief := fun hst => by rw [hst] at hep; cases hep
    have hpau : (s.prcAt p).state ≠ .paused := fun hst => by rw [hst] at hep; cases hep
    set u : State := { s with rtb := s.rtb.evicted x }
    have hcreate : exec (.sighting h p ing srv) u =
        .next (createEntry x.1 h p ing srv (u.withoutRecord (.sighting h p ing srv))) :=
      exec_sighting_creates ht (Rtb.evicted_lookup x hl) (hr.evicted_length hmem) hempty hlow hs
        (.inr ⟨hrel, hpau, fun _ => .inl hq⟩)
    have hm := createEntry_created x.1 h p ing srv (u.withoutRecord (.sighting h p ing srv)) hempty
    refine ⟨_, _, hevict.trans hcreate, hm.slot, rfl, rfl, rfl, rfl, rfl, rfl, rfl, rfl, fun j hj => ?_, fun q => ?_,
      hm.counters, rfl, rfl⟩
    · rw [hm.others j hj]
      exact (Rtb.evicted_entry? ..).trans (if_neg hj)
    · have harrival : (createEntry x.1 h p ing srv (u.withoutRecord (.sighting h p ing srv))).rtb.arrival =
          modAt (modAt s.rtb.arrival x.2.port fun l => l.erase x.1) p fun l => l ++ [x.1] := hm.arrival
      rw [harrival, modAt_get_at, modAt_get_at]
      by_cases hp : q = p <;> simp [hp]
  · have hrest : (loseSighting (s.withoutRecord (.sighting h p ing srv))).laneSettled := hs
    rw [exec_sighting_taken ht, takeSighting_loses _ _ _ _ (s.withoutRecord _) hl hn (oldestSeen_eq_none.mpr hno),
      settle_eq_ctlPump hrest]
    rfl

end Sys2Proof.Proofs
end

section
/-! SUPPORT. The episode allowance (R159, R168), and the grants of a distribution: one grant, then a run of them, member
by member (R146, R147, R160, R161). -/

namespace Sys2Proof.Machine

/-! ### Bytes added to A -/

section
variable {p : Port} {n : Nat} {s : State}

theorem addToPool_fits (h : (s.cruAt p).a + n ≤ 16777215) :
    addToPool p n s = s.modCru p fun c => { c with a := c.a + n } := if_pos h

/-- Above 16,777,215 A is cut off, and the excess is counted and announced. -/
theorem addToPool_cut (h : 16777215 < (s.cruAt p).a + n) : addToPool p n s = { s with
    cru := { (s.modCru p fun c => { c with a := 16777215 }).cru with
      overflow := sat32 (s.cru.overflow + ((s.cruAt p).a + n - 16777215)) }
    ern := s.ern.raise .creditOverflow (some p) (s.prcAt p).episode.number ((s.cruAt p).a + n - 16777215) s.stamp } :=
  if_neg (not_le.mpr h)

theorem addToPool_cut_cruAt (h : 16777215 < (s.cruAt p).a + n) :
    (addToPool p n s).cruAt p = ⟨16777215, (s.cruAt p).s⟩ := by
  rw [addToPool_cut h]
  exact modAt_get_self ..

end

/-! ### One grant -/

/-- The entry of a member after a grant (R161). -/
def Entry.withGrant (n : Nat) (e : Entry) : Entry :=
  { e with dry := some false, granted := sat32 (e.granted + n) }

/-- The record of a gate after an allowance has been added (R146). -/
def Gate.withAllowance (n : Nat) (g : Gate) : Gate := { g with pendingAdd := min 16777215 (g.pendingAdd + n) }

/-- The grant of the entry in a slot: the lesser of the share and its cap (R161). -/
def State.grantOf (s : State) (share : Nat) (i : Slot) : Nat :=
  match s.rtb.entry? i with
  | some e => min share e.cap
  | none => 0

theorem State.grantOf_of_entry {s : State} {i : Slot} {e : Entry} (share : Nat) (he : s.rtb.entry? i = some e) :
    s.grantOf share i = min share e.cap := by
  unfold State.grantOf; rw [he]

theorem State.grantOf_le (s : State) (share : Nat) (i : Slot) : s.grantOf share i ≤ share := by
  unfold State.grantOf
  split
  · exact min_le_left ..
  · exact Nat.zero_le _

theorem Gpm.addAllowance_gate (m : Gpm) (g : GateNo) (n : Nat) (h : GateNo) :
    (m.addAllowance g n).gate h = if h = g then (m.gate g).withAllowance n else m.gate h := by
  unfold Gpm.addAllowance
  dsimp only
  split
  · exact Gpm.gate_modGate m g h _
  · rw [Gpm.gate_enter]; exact Gpm.gate_modGate m g h _

theorem Gpm.addAllowance_fifo (m : Gpm) (g : GateNo) {n : Nat} (hn : n ≠ 0) :
    (m.addAllowance g n).fifo = if g ∈ m.fifo then m.fifo else m.fifo ++ [g] := by
  obtain ⟨_, _, _, _, hfifo⟩ :=
    Gpm.enter_keeps (m.modGate g fun x => { x with pendingAdd := min 16777215 (x.pendingAdd + n) }) g
  unfold Gpm.addAllowance
  rw [if_neg hn]
  exact hfifo

section
variable (p : Port) (share : Nat) (s : State) (i : Slot)

/-- A grant to an empty slot, which no distribution makes. -/
theorem grant_of_empty (he : s.rtb.entry? i = none) : grant p share s i = s := by
  unfold grant; rw [he]

/-- A grant leaves A, reaches the gate, and is written into the entry. -/
theorem grant_of_entry {e : Entry} (he : s.rtb.entry? i = some e) : grant p share s i = { s with
    cru := (s.modCru p fun c => { c with a := c.a - s.grantOf share i }).cru
    rtb := s.rtb.modEntry i (Entry.withGrant (s.grantOf share i))
    gpm := (onGateOf i (fun g m => m.addAllowance g (s.grantOf share i)) s).gpm } := by
  rw [State.grantOf_of_entry share he]
  unfold grant onGateOf
  rw [he]
  change State.modEntry i _ (match s.gateOf i with | none => _ | some g => _) = _
  cases s.gateOf i <;> rfl

theorem grant_rest : grant p share s i = { s with
    cru := (grant p share s i).cru, rtb := (grant p share s i).rtb, gpm := (grant p share s i).gpm } := by
  cases he : s.rtb.entry? i with
  | none => rw [grant_of_empty _ _ _ _ he]
  | some e => rw [grant_of_entry _ _ _ _ he]

theorem grant_cruAt (q : Port) : (grant p share s i).cruAt q =
    if q = p then ⟨(s.cruAt p).a - s.grantOf share i, (s.cruAt p).s⟩ else s.cruAt q := by
  cases he : s.rtb.entry? i with
  | none =>
    rw [grant_of_empty _ _ _ _ he, State.grantOf, he]
    split
    · next h => rw [h]; rfl
    · rfl
  | some e =>
    rw [grant_of_entry _ _ _ _ he]
    exact State.cruAt_modCru ..

theorem grant_entry? (j : Slot) : (grant p share s i).rtb.entry? j =
    if j = i then (s.rtb.entry? j).map (Entry.withGrant (s.grantOf share i)) else s.rtb.entry? j := by
  cases he : s.rtb.entry? i with
  | none =>
    rw [grant_of_empty _ _ _ _ he]
    split
    · next h => rw [h, he]; rfl
    · rfl
  | some e =>
    rw [grant_of_entry _ _ _ _ he]
    exact Rtb.entry?_modEntry ..

/-- A grant changes no cap, so it leaves every grant as it is. -/
@[simp] theorem grant_grantOf : (grant p share s i).grantOf share = s.grantOf share := by
  funext j
  by_cases h : j = i
  · simp only [State.grantOf, grant_entry?, if_pos h]
    cases s.rtb.entry? j <;> rfl
  · simp only [State.grantOf, grant_entry?, if_neg h]

@[simp] theorem grant_gateOf : (grant p share s i).gateOf = s.gateOf := by
  funext j
  unfold State.gateOf
  rw [grant_entry?]
  split
  · cases s.rtb.entry? j <;> rfl
  · rfl

theorem grant_gpm_of_gate {g : GateNo} (hg : s.gateOf i = some g) :
    (grant p share s i).gpm = s.gpm.addAllowance g (s.grantOf share i) := by
  cases he : s.rtb.entry? i with
  | none => simp [State.gateOf, he] at hg
  | some e => rw [grant_of_entry _ _ _ _ he]; simp only [onGateOf, hg]

theorem grant_gpm_of_no_gate (hg : s.gateOf i = none) : (grant p share s i).gpm = s.gpm := by
  cases he : s.rtb.entry? i with
  | none => rw [grant_of_empty _ _ _ _ he]
  | some e => rw [grant_of_entry _ _ _ _ he]; simp only [onGateOf, hg]

theorem grant_gate_of_not_held {g : GateNo} (hg : s.gateOf i ≠ some g) :
    (grant p share s i).gpm.gate g = s.gpm.gate g := by
  cases hi : s.gateOf i with
  | none => rw [grant_gpm_of_no_gate _ _ _ _ hi]
  | some h =>
    rw [grant_gpm_of_gate _ _ _ _ hi, Gpm.addAllowance_gate, if_neg]
    rintro rfl
    exact hg hi

end

/-! ### A run of grants -/

section
variable (p : Port) (share : Nat) (l : List Slot) (s : State)

theorem grants_rest : l.foldl (grant p share) s = { s with
    cru := (l.foldl (grant p share) s).cru, rtb := (l.foldl (grant p share) s).rtb
    gpm := (l.foldl (grant p share) s).gpm } := by
  induction l generalizing s with
  | nil => rfl
  | cons i l ih => rw [List.foldl_cons, ih, grant_rest]

@[simp] theorem grants_grantOf : (l.foldl (grant p share) s).grantOf share = s.grantOf share := by
  induction l generalizing s with
  | nil => rfl
  | cons i l ih => rw [List.foldl_cons, ih, grant_grantOf]

@[simp] theorem grants_gateOf : (l.foldl (grant p share) s).gateOf = s.gateOf := by
  induction l generalizing s with
  | nil => rfl
  | cons i l ih => rw [List.foldl_cons, ih, grant_gateOf]

/-- A falls by the sum of the grants. -/
theorem grants_cruAt (q : Port) : (l.foldl (grant p share) s).cruAt q =
    if q = p then ⟨(s.cruAt p).a - (l.map (s.grantOf share)).sum, (s.cruAt p).s⟩ else s.cruAt q := by
  induction l generalizing s with
  | nil =>
    split
    · next h => rw [h]; rfl
    · rfl
  | cons i l ih =>
    rw [List.foldl_cons, ih, grant_grantOf, grant_cruAt, grant_cruAt, if_pos rfl, List.map_cons, List.sum_cons,
      Nat.sub_add_eq]
    split <;> rfl

theorem grants_entry?_of_not_mem {i : Slot} (hi : i ∉ l) :
    (l.foldl (grant p share) s).rtb.entry? i = s.rtb.entry? i := by
  induction l generalizing s with
  | nil => rfl
  | cons j l ih =>
    rw [List.foldl_cons, ih _ (List.not_mem_of_not_mem_cons hi), grant_entry?, if_neg (List.ne_of_not_mem_cons hi)]

theorem grants_gate_of_not_held {g : GateNo} (hg : ∀ i ∈ l, s.gateOf i ≠ some g) :
    (l.foldl (grant p share) s).gpm.gate g = s.gpm.gate g := by
  induction l generalizing s with
  | nil => rfl
  | cons i l ih =>
    obtain ⟨hi, hl⟩ := List.forall_mem_cons.mp hg
    rw [List.foldl_cons, ih _ (by rwa [grant_gateOf]), grant_gate_of_not_held _ _ _ _ hi]

/-- No grant empties a slot or sets the dry field. -/
theorem grants_keep_wet {i : Slot} {e : Entry} (he : s.rtb.entry? i = some e) :
    ∃ e', (l.foldl (grant p share) s).rtb.entry? i = some e' ∧ (e.dry = some false → e'.dry = some false) := by
  induction l generalizing s e with
  | nil => exact ⟨e, he, id⟩
  | cons j l ih =>
    have hstep := grant_entry? p share s j i
    rw [he] at hstep
    split at hstep
    · obtain ⟨e', he', hwet⟩ := ih _ hstep
      exact ⟨e', he', fun _ => hwet rfl⟩
    · exact ih _ hstep

/-- Every member of the run has its dry field cleared. -/
theorem grants_wet {i : Slot} {e : Entry} (hi : i ∈ l) (he : s.rtb.entry? i = some e) :
    ∃ e', (l.foldl (grant p share) s).rtb.entry? i = some e' ∧ e'.dry = some false := by
  obtain ⟨a, b, rfl⟩ := List.append_of_mem hi
  rw [List.foldl_append, List.foldl_cons]
  obtain ⟨f, hf, _⟩ := grants_keep_wet p share a s he
  have hgranted := grant_entry? p share (a.foldl (grant p share) s) i i
  rw [if_pos rfl, hf] at hgranted
  obtain ⟨e', he', hwet⟩ := grants_keep_wet p share b _ hgranted
  exact ⟨e', he', hwet rfl⟩

end

/-- A member of a list without duplicates stands in one place of it. -/
theorem nodup_split_at {α : Type} {l : List α} {x : α} (hl : l.Nodup) (hx : x ∈ l) :
    ∃ a b, l = a ++ x :: b ∧ x ∉ a ∧ x ∉ b := by
  obtain ⟨a, b, rfl⟩ := List.append_of_mem hx
  obtain ⟨hout, _⟩ := List.nodup_cons.mp (List.nodup_middle.mp hl)
  exact ⟨a, b, rfl, fun h => hout (List.mem_append_left b h), fun h => hout (List.mem_append_right a h)⟩

section
variable (p : Port) (share : Nat) {l : List Slot} {s : State} (hl : l.Nodup)
include hl

theorem grants_entry?_of_mem {i : Slot} {e : Entry} (hi : i ∈ l) (he : s.rtb.entry? i = some e) :
    (l.foldl (grant p share) s).rtb.entry? i = some (e.withGrant (s.grantOf share i)) := by
  obtain ⟨a, b, rfl, ha, hb⟩ := nodup_split_at hl hi
  rw [List.foldl_append, List.foldl_cons, grants_entry?_of_not_mem _ _ _ _ hb, grant_entry?, if_pos rfl,
    grants_entry?_of_not_mem _ _ _ _ ha, grants_grantOf, he, Option.map_some]

variable (hone : ∀ i j g, s.gateOf i = some g → s.gateOf j = some g → i = j)
include hone

theorem grants_gate_of_mem {i : Slot} {g : GateNo} (hi : i ∈ l) (hg : s.gateOf i = some g) :
    (l.foldl (grant p share) s).gpm.gate g = (s.gpm.gate g).withAllowance (s.grantOf share i) := by
  obtain ⟨a, b, rfl, ha, hb⟩ := nodup_split_at hl hi
  have hother {c : List Slot} (hc : i ∉ c) : ∀ j ∈ c, s.gateOf j ≠ some g :=
    fun j hj hjg => hc (hone i j g hg hjg ▸ hj)
  rw [List.foldl_append, List.foldl_cons,
    grants_gate_of_not_held _ _ _ _ (by simpa only [grant_gateOf, grants_gateOf] using hother hb),
    grant_gpm_of_gate _ _ _ _ (by rw [grants_gateOf]; exact hg), Gpm.addAllowance_gate, if_pos rfl,
    grants_gate_of_not_held _ _ _ _ (hother ha), grants_grantOf]

/-- The gates of the members enter the FIFO in the order of the run, those absent from it. -/
theorem grants_fifo (hpos : ∀ i ∈ l, s.grantOf share i ≠ 0) : (l.foldl (grant p share) s).gpm.fifo =
    s.gpm.fifo ++ (l.filterMap s.gateOf).filter (· ∉ s.gpm.fifo) := by
  induction l generalizing s with
  | nil => simp
  | cons i l ih =>
    obtain ⟨hout, hl⟩ := List.nodup_cons.mp hl
    obtain ⟨hi, hpos⟩ := List.forall_mem_cons.mp hpos
    rw [List.foldl_cons, ih hl (by rwa [grant_gateOf]) (by rwa [grant_grantOf]), grant_gateOf]
    cases hg : s.gateOf i with
    | none => rw [grant_gpm_of_no_gate _ _ _ _ hg, List.filterMap_cons_none hg]
    | some g =>
      have hlater : ∀ h ∈ l.filterMap s.gateOf, h ≠ g := by
        rintro _ hh rfl
        obtain ⟨j, hj, hjg⟩ := List.mem_filterMap.mp hh
        exact hout (hone i j _ hg hjg ▸ hj)
      rw [grant_gpm_of_gate _ _ _ _ hg, Gpm.addAllowance_fifo _ _ hi, List.filterMap_cons_some hg]
      split
      · next hin => rw [List.filter_cons_of_neg (by simpa using hin)]
      · next hin =>
        have hsame : (l.filterMap s.gateOf).filter (· ∉ s.gpm.fifo ++ [g]) =
            (l.filterMap s.gateOf).filter (· ∉ s.gpm.fifo) :=
          List.filter_congr fun h hh => by simp [hlater h hh]
        rw [List.filter_cons_of_pos (by simpa using hin), List.append_assoc, hsame, List.singleton_append]

end

/-! ### Distribution -/

/-- The members of a distribution of A (R160). -/
def State.readyMembers (s : State) (p : Port) : List Slot := (s.aduAt p).admitted.filter s.ready

/-- The share of each member: the largest multiple of 64 in A / d (R161). -/
def State.shareOf (s : State) (p : Port) : Nat := (s.cruAt p).a / (s.readyMembers p).length / 64 * 64

section
variable {p : Port} {s : State}

theorem distribute_nothing (h : s.shareOf p < 1024) : distribute p s = s := by
  unfold distribute
  dsimp only
  split
  · rfl
  · exact if_pos h

theorem distribute_shares (h : 1024 ≤ s.shareOf p) :
    distribute p s = (s.readyMembers p).foldl (grant p (s.shareOf p)) s := by
  have hsome : (s.readyMembers p).length ≠ 0 := fun h0 => by
    rw [State.shareOf, h0, Nat.div_zero, Nat.zero_div, Nat.zero_mul] at h
    omega
  exact (if_neg hsome).trans (if_neg (not_lt.mpr h))

/-- The grants of a distribution never exceed A. -/
theorem sum_grants_le (p : Port) (s : State) :
    ((s.readyMembers p).map (s.grantOf (s.shareOf p))).sum ≤ (s.cruAt p).a := by
  set d := (s.readyMembers p).length
  calc ((s.readyMembers p).map (s.grantOf (s.shareOf p))).sum
      ≤ d * s.shareOf p := by
        have hle := List.sum_le_card_nsmul ((s.readyMembers p).map (s.grantOf (s.shareOf p))) (s.shareOf p)
          (List.forall_mem_map.mpr fun i _ => s.grantOf_le _ i)
        rwa [List.length_map, smul_eq_mul] at hle
    _ ≤ d * ((s.cruAt p).a / d) := Nat.mul_le_mul_left d (Nat.div_mul_le_self ..)
    _ ≤ (s.cruAt p).a := Nat.mul_div_le ..

/-- A ready member is an entry whose gate holds no pending add (R160). -/
theorem State.ready_entry {i : Slot} (h : s.ready i = true) :
    ∃ e r, s.rtb.entry? i = some e ∧ e.gate = some r ∧ s.gateOf i = some r.gate ∧
      (s.gpm.gate r.gate).pendingAdd = 0 := by
  unfold State.ready at h
  cases he : s.rtb.entry? i with
  | none => rw [he] at h; cases h
  | some e =>
    cases hr : e.gate with
    | none => simp [he, hr] at h
    | some r =>
      refine ⟨e, r, rfl, hr, by simp [State.gateOf, he, hr], ?_⟩
      simp only [he, hr, Bool.and_eq_true, beq_iff_eq] at h
      exact h.2

theorem State.readyMembers_ready {i : Slot} (hi : i ∈ s.readyMembers p) : s.ready i = true :=
  (List.mem_filter.mp hi).2

end

/-! ### One entry for a key, one member for a gate (R38, R140) -/

theorem Rtb.mem_of_entry? {r : Rtb} {i : Slot} {e : Entry} (h : r.entry? i = some e) : (i, e) ∈ r.table := by
  obtain ⟨x, hx, rfl⟩ := Option.map_eq_some_iff.mp h
  have hslot : x.1 = i := by simpa using List.find?_some hx
  exact hslot ▸ List.mem_of_find?_eq_some hx

theorem Rtb.ok.slot_of_key {r : Rtb} (hr : r.ok) {i j : Slot} {e f : Entry} (he : r.entry? i = some e)
    (hf : r.entry? j = some f) (hhash : e.hash = f.hash) (hport : e.port = f.port) : i = j := by
  have hkeys : (r.table.map fun x => (x.2.hash, x.2.port)).Nodup :=
    List.pairwise_map.mpr (hr.1.imp fun h k => h.2 (Prod.mk.inj k))
  exact congrArg Prod.fst (List.inj_on_of_nodup_map hkeys (Rtb.mem_of_entry? he) (Rtb.mem_of_entry? hf)
    (Prod.ext hhash hport))

theorem State.booksOk.gateOf_inj {s : State} (h : s.booksOk) (i j : Slot) (g : GateNo)
    (hi : s.gateOf i = some g) (hj : s.gateOf j = some g) : i = j := by
  have hbound {k : Slot} (hk : s.gateOf k = some g) :
      ∃ e, s.rtb.entry? k = some e ∧ (s.gpm.gate g).bound = some ⟨e.hash, e.port⟩ := by
    obtain ⟨e, he, hgate⟩ := Option.bind_eq_some_iff.mp hk
    obtain ⟨r, hr, rfl⟩ := Option.map_eq_some_iff.mp hgate
    exact ⟨e, he, (h.held k e r he hr).1⟩
  obtain ⟨e, he, hbe⟩ := hbound hi
  obtain ⟨f, hf, hbf⟩ := hbound hj
  obtain ⟨hhash, hport⟩ := Key.mk.inj (Option.some.inj (hbe.symm.trans hbf))
  exact h.table.slot_of_key he hf hhash hport

theorem State.booksOk.readyMembers_nodup {s : State} (h : s.booksOk) (p : Port) : (s.readyMembers p).Nodup :=
  (h.admitted p).1.filter _

end Sys2Proof.Machine

namespace Sys2Proof.Proofs

open Sys2Proof Sys2Proof.Machine

/-- What a distribution with a share of at least 1,024 does in every state. -/
theorem distribute_pool {p : Port} {s : State} (h : 1024 ≤ s.shareOf p) :
    let t := distribute p s
    let caps := (s.readyMembers p).map (s.grantOf (s.shareOf p))
    caps.sum ≤ (s.cruAt p).a ∧ (t.cruAt p).a = (s.cruAt p).a - caps.sum ∧
      (t.cruAt p).s = (s.cruAt p).s ∧ (∀ q, q ≠ p → t.cruAt q = s.cruAt q) ∧
      (∀ i, i ∉ s.readyMembers p → t.rtb.entry? i = s.rtb.entry? i) ∧
      (∀ i ∈ s.readyMembers p, ∃ e e', s.rtb.entry? i = some e ∧ t.rtb.entry? i = some e' ∧ e'.dry = some false) := by
  intro t caps
  have ht : t = (s.readyMembers p).foldl (grant p (s.shareOf p)) s := distribute_shares h
  have hpool : t.cruAt p = ⟨(s.cruAt p).a - caps.sum, (s.cruAt p).s⟩ := by
    rw [ht, grants_cruAt, if_pos rfl]
  rw [hpool, ht]
  refine ⟨sum_grants_le p s, rfl, rfl, fun q hq => by rw [grants_cruAt, if_neg hq],
    fun i hi => grants_entry?_of_not_mem _ _ _ _ hi, fun i hi => ?_⟩
  obtain ⟨e, _, he, _⟩ := State.ready_entry (State.readyMembers_ready hi)
  obtain ⟨e', he', hwet⟩ := grants_wet p (s.shareOf p) _ s hi he
  exact ⟨e, e', he, he', hwet⟩

section
variable {p : Port} {s : State} (h : 1024 ≤ s.shareOf p) (hbooks : s.booksOk)
include h hbooks

/-- A ready member's grant is in its entry and is the pending add of its gate. -/
theorem distribute_member {i : Slot} (hi : i ∈ s.readyMembers p) :
    ∃ e r, s.rtb.entry? i = some e ∧ e.gate = some r ∧
      (distribute p s).rtb.entry? i =
        some { e with dry := some false, granted := sat32 (e.granted + min (s.shareOf p) e.cap) } ∧
      (distribute p s).gpm.gate r.gate =
        { s.gpm.gate r.gate with pendingAdd := min 16777215 (min (s.shareOf p) e.cap) } := by
  obtain ⟨e, r, he, hr, hgate, hnone⟩ := State.ready_entry (State.readyMembers_ready hi)
  have hnodup := hbooks.readyMembers_nodup p
  have hgrant := State.grantOf_of_entry (s.shareOf p) he
  refine ⟨e, r, he, hr, ?_, ?_⟩
  · rw [distribute_shares h, grants_entry?_of_mem _ _ hnodup hi he, hgrant, Entry.withGrant]
  · rw [distribute_shares h, grants_gate_of_mem _ _ hnodup hbooks.gateOf_inj hi hgate, hgrant, Gate.withAllowance,
      hnone, Nat.zero_add]

theorem distribute_fifo (hcap : ∀ i ∈ s.readyMembers p, ∀ e, s.rtb.entry? i = some e → e.cap ≠ 0) :
    (distribute p s).gpm.fifo =
      s.gpm.fifo ++ ((s.readyMembers p).filterMap s.gateOf).filter (· ∉ s.gpm.fifo) := by
  rw [distribute_shares h]
  refine grants_fifo _ _ (hbooks.readyMembers_nodup p) hbooks.gateOf_inj fun i hi => ?_
  obtain ⟨e, _, he, _⟩ := State.ready_entry (State.readyMembers_ready hi)
  have := hcap i hi e he
  rw [State.grantOf_of_entry _ he]
  omega

end

/-- Settles O34: the two outcomes of an addition to A, and a distribution as a run of single grants. -/
theorem poolSaturatesAndIsShared : Obligations.PoolSaturatesAndIsShared := by
  unfold Obligations.PoolSaturatesAndIsShared
  refine ⟨fun s p n => ⟨addToPool_fits, fun hcut => ?_⟩, fun s p => ?_⟩
  · intro t
    have ht : t = _ := addToPool_cut hcut
    have hport : t.cruAt p = _ := addToPool_cut_cruAt hcut
    rw [hport]
    exact ⟨rfl, rfl, by rw [ht], by rw [ht], by rw [ht]⟩
  · intro ready share caps t
    refine ⟨distribute_nothing, fun hshare => ?_⟩
    obtain ⟨hle, ha, hs, hports, hothers, hwet⟩ := distribute_pool (p := p) (s := s) hshare
    refine ⟨hle, ha, hs, hports, hothers, hwet, fun hbooks =>
      ⟨fun i hi => distribute_member hshare hbooks hi, fun g hg => ?_, distribute_fifo hshare hbooks, ?_⟩⟩
    · exact (congrArg (·.gpm.gate g) (distribute_shares hshare)).trans (grants_gate_of_not_held _ _ _ _ hg)
    · have hrest := grants_rest p (s.shareOf p) (s.readyMembers p) s
      rwa [← distribute_shares hshare] at hrest

end Sys2Proof.Proofs
end

section
/-! SUPPORT. What a command can do: the event of each command that is one event of the part, the effect of each
request, and the steps `Act` that a command's run is made of, whatever the state. -/

namespace Sys2Proof.Machine

/-! ### The events that the expiries, the transmitters and the control receiver make -/

/-- The event of DEBOUNCE_EXPIRY (R92). -/
def debounceEvent (p : Port) (s : State) : State :=
  if s.debounceDue p then
    checkOpening p (s.modPrc p fun q => { q with debounce := .stopped, qualified := true })
  else s

/-- The event of STALE_EXPIRY (R94, R101). -/
def staleEvent (p : Port) (s : State) : State :=
  if s.staleDue p then
    let s1 := s.modPrc p fun q => { q with stale := .stopped }
    if (s.prcAt p).state = .watch then s1.enterPort p .idle
    else endEpisode p .stale (s1.raiseEpisode .telemetryStale p (s.prcAt p).state.code)
  else s

/-- The event of GUARD_EXPIRY (R116). -/
def guardEvent (p : Port) (s : State) : State :=
  if s.guardDue p then
    endStep p true ((s.modPrc p fun q => { q with guard := .stopped }).modEpisode p fun e =>
      { e with stepsByGuard := e.stepsByGuard + 1 })
  else s

/-- The event of DRAIN_EXPIRY (R100). -/
def drainEvent (p : Port) (s : State) : State :=
  if s.drainDue p then
    endEpisode p .drainStall
      ((s.modPrc p fun q => { q with drain := .stopped }).raiseEpisode .drainStall p (s.oevAt p).level)
  else s

/-- The event of COOLDOWN_EXPIRY (R104). -/
def cooldownEvent (p : Port) (s : State) : State := if s.cooldownDue p then s.enterPort p .idle else s

/-- The event of IDLE_INTERVAL_EXPIRY (R16). -/
def idleEvent (s : State) : State :=
  match s.flc.idle with
  | .running start => if start + 100 ≤ s.now then { s with flc := { s.flc with idle := .runOut } } else s
  | _ => s

/-- The event of FABRIC_TRANSMIT_COMPLETE (R15). -/
def laneFree (s : State) : State := { s with flc := { s.flc with tx := none } }

/-- The event of CTL_BYTE_RECEIVED (R181). -/
def byteEvent (b : Byte) (s : State) : State :=
  match s.clc.rx with
  | .hunting => if b = 0xC5#8 then keepReading [] s else countSkipped s
  | .reading got => readByte (got ++ [b]) s

/-- The event of CTL_FRAMING_ERROR (R181, R182). -/
def framingEvent (s : State) : State :=
  match s.clc.rx with
  | .hunting => countSkipped s
  | .reading _ => discardFrame .framing s

/-- The event of INTER_BYTE_GAP_EXPIRY (R182). -/
def gapEvent (s : State) : State := if s.gapDue then discardFrame .gap s else s

/-- The control transmitter is free, and no reset follows the frame that has ended (R186). -/
def lineFree (s : State) : State := { s with clc := { s.clc with tx := none } }

/-- The event of CTL_TRANSMIT_COMPLETE (R186, R191). -/
def lineFreeEvent (s : State) : State :=
  if s.clc.resetAsked ∧ s.clc.replies = [] ∧ s.clc.tx.isSome then deviceReset .completing s else lineFree s

/-! ### The effect of a request -/

/-- The FORMAT check, and then the request itself (R185). -/
def checked (kind : Byte) (body : List Byte) (run : List Byte → State → Effect) (s : State) : Effect :=
  if bodyLength kind body = some body.length then run body s else refuse .format [] s

/-- What a taken request does and replies (R185); a command that is no request does nothing. -/
def effectOf : Instr → State → Effect
  | .identify _ b => checked 0x01 b identify
  | .resetDevice _ b => checked 0x02 b resetDevice
  | .status _ b => checked 0x03 b status
  | .time _ b => checked 0x04 b time
  | .setDevice _ b => checked 0x05 b setDevice
  | .linkStart _ b => checked 0x10 b linkStart
  | .linkStop _ b => checked 0x11 b linkStop
  | .linkReset _ b => checked 0x12 b linkReset
  | .setPort _ b => checked 0x20 b setPort
  | .getPort _ b => checked 0x21 b (withPort getPortOn)
  | .arm _ b => checked 0x22 b (withPort armOn)
  | .disarm _ b => checked 0x23 b (withPort disarmOn)
  | .startRelief _ b => checked 0x24 b startRelief
  | .stopRelief _ b => checked 0x25 b (withPort stopReliefOn)
  | .pause _ b => checked 0x26 b (withPort pauseOn)
  | .resume _ b => checked 0x27 b (withPort resumeOn)
  | .setLevels _ b => checked 0x30 b setLevels
  | .getLevels _ b => checked 0x31 b getLevels
  | .setWindow _ b => checked 0x38 b setWindow
  | .getWindow _ b => checked 0x39 b getWindow
  | .setDefaultClass _ b => checked 0x3A b setDefaultClass
  | .writeProgram _ b => checked 0x40 b writeProgram
  | .readProgram _ b => checked 0x41 b readProgram
  | .readTable _ b => checked 0x50 b readTable
  | .clearHistory _ b => checked 0x51 b clearHistory
  | .setNoticeLevels _ b => checked 0x52 b setNoticeLevels
  | .readFault _ b => checked 0x53 b readFault
  | .unknownRequest _ _ _ => refuse .unknown []
  | _ => fun s => (s, [])

/-- A request run and its reply composed (R185). -/
def answer (r : CtlFrame) (f : State → Effect) (s : State) : State := putReply r.kind r.tag (f s).2 (f s).1

theorem runRequest_eq_answer (kind tag : Byte) (body : List Byte) (run : List Byte → State → Effect) :
    runRequest kind tag body run = answer ⟨kind, tag, body⟩ (checked kind body run) := by
  funext s
  unfold runRequest answer checked
  split <;> rfl

theorem onRequest_eq_answer (kind tag : Byte) (body : List Byte) (run : List Byte → State → Effect) (s : State) :
    onRequest kind tag body run s =
      onEvent (requestEvent kind tag body (answer ⟨kind, tag, body⟩ (checked kind body run))) s := by
  unfold onRequest
  rw [runRequest_eq_answer]

/-- A request command is its request's arrival or its taking, with its effect and its reply. -/
theorem exec_request {c : Instr} {r : CtlFrame} (h : requestOf c = some r) (hk : kindUnknown c = true) (s : State) :
    exec c s = onEvent (requestEvent r.kind r.tag r.body (answer r (effectOf c))) s := by
  cases c <;> cases h
  case unknownRequest kind tag body =>
    have hu : knownKind kind = false := by simpa [kindUnknown] using hk
    simp only [exec, execUnknownRequest, hu, Bool.false_eq_true, if_false]
    rfl
  all_goals exact onRequest_eq_answer ..

/-- An UNKNOWN_REQUEST whose kind is known is no event of its own. -/
theorem exec_unknownRequest_of_known {kind : Byte} (h : knownKind kind = true) (tag : Byte) (body : List Byte)
    (s : State) : exec (.unknownRequest kind tag body) s = onEvent id s := by
  simp only [exec, execUnknownRequest, h, if_true]
  rfl

/-! ### What a command's run is made of -/

/-- The steps that the run of a command is made of: each leads from one state of the part to another within the
command. -/
inductive Act : Instr → State → State → Prop
  | settle (c : Instr) (s : State) : Act c s (settle s)
  | symbol (syms : List LaneSym) (x : LaneSym) (s : State) : Act (.fabricFrameEvent syms) s (takeSymbol s x)
  | joinRecords (c : Instr) (r : InRecord) (s : State) :
      Act c s { s with flc := { s.flc with handed := s.flc.handed ++ [r] } }
  | leaveRecords (c : Instr) (r : InRecord) (s : State) : Act c s (s.withoutRecord r)
  | report (p : Port) (seq cells : BitVec 16) (d : BitVec 32) (s : State) :
      Act (.occupancyReport p seq cells d) s (takeReport p seq cells d s)
  | sighting (h : BitVec 32) (p : Port) (ing : BitVec 6) (srv : BitVec 16) (s : State) :
      Act (.sighting h p ing srv) s (takeSighting h p ing srv s)
  | flowEnd (h : BitVec 32) (p : Port) (g : Option GateRef) (left : BitVec 24) (s : State) :
      Act (.flowEnd h p g left) s (takeFlowEnd h p g left.toNat s)
  | gateSpent (g : GateNo) (ep : BitVec 4) (echo : BitVec 8) (h : BitVec 32) (s : State) :
      Act (.gateSpent g ep echo h) s (takeGateSpent g ep echo h s)
  | holdPressure (g : GateNo) (ep : BitVec 4) (h : BitVec 32) (held : BitVec 24) (s : State) :
      Act (.holdPressure g ep h held) s (takeHoldPressure g ep h held s)
  | debounce (p : Port) (s : State) : Act (.debounceExpiry p) s (debounceEvent p s)
  | stale (p : Port) (s : State) : Act (.staleExpiry p) s (staleEvent p s)
  | guard (p : Port) (s : State) : Act (.guardExpiry p) s (guardEvent p s)
  | drain (p : Port) (s : State) : Act (.drainExpiry p) s (drainEvent p s)
  | cooldown (p : Port) (s : State) : Act (.cooldownExpiry p) s (cooldownEvent p s)
  | age (i : Slot) (s : State) : Act (.agingEvent i) s (ageOut i s)
  | idle (s : State) : Act .idleIntervalExpiry s (idleEvent s)
  | laneFree (s : State) : Act .fabricTransmitComplete s (laneFree s)
  | byte (b : Byte) (s : State) : Act (.ctlByteReceived b) s (byteEvent b s)
  | framing (s : State) : Act .ctlFramingError s (framingEvent s)
  | gap (s : State) : Act .interByteGapExpiry s (gapEvent s)
  | lineFree (s : State) : Act .ctlTransmitComplete s (lineFree s)
  | queue (c : Instr) (r : CtlFrame) (s : State) : Act c s (queueRequest r s)
  | request (c : Instr) (r : CtlFrame) (s : State) (h : s.canTake = true) : Act c s (answer r (effectOf c) (dropHead s))

/-- A run of such steps. -/
abbrev Acts (c : Instr) : State → State → Prop := Relation.ReflTransGen (Act c)

/-- A relation that every step of a command keeps to holds of the command's run. -/
theorem Acts.rel {c : Instr} {R : State → State → Prop} (hrefl : ∀ s, R s s)
    (htrans : ∀ {s t u}, R s t → R t u → R s u) (hact : ∀ {s t}, Act c s t → R s t) {s t : State}
    (h : Acts c s t) : R s t := by
  induction h with
  | refl => exact hrefl s
  | tail _ hlast ih => exact htrans ih (hact hlast)

/-- What a command answers: nothing done, a run of steps, or a stage of a device reset. -/
inductive Ran (c : Instr) (s : State) : State → Prop
  | nothing : Ran c s s
  | acts {t : State} (hs : s.phase = .running) (h : Acts c s t) : Ran c s t
  | reset (ph : ResetPhase) (h : ph ≠ .running) : Ran c s (deviceReset ph s)
  | release (h : s.phase = .held) : Ran c s { s with phase := .completing }
  | complete (h : s.phase = .completing) : Ran c s { s with phase := .running, tmb := ⟨0⟩ }

/-- A device reset leaves nothing to send. -/
theorem deviceReset_settled (ph : ResetPhase) (s : State) : (deviceReset ph s).settled :=
  ⟨fun _ h => absurd rfl h, fun _ => ⟨rfl, rfl⟩⟩

section
variable {c : Instr} {s : State}

/-- A command that is one event of the part. -/
theorem ran_onEvent {f : State → State} (hf : Acts c s (f s)) : ∃ t, onEvent f s = .next t ∧ Ran c s t := by
  unfold onEvent
  split
  · next hs => exact ⟨_, rfl, .acts hs (hf.tail (.settle c _))⟩
  · exact ⟨s, rfl, .nothing⟩

theorem acts_arriveRecord {r : InRecord} {f : State → State} (hf : ∀ u, Act c u (f u)) :
    Acts c s (arriveRecord r f s) := by
  unfold arriveRecord
  split
  · split
    · exact .single (hf s)
    · split
      · exact .tail (.single (.leaveRecords c r s)) (hf _)
      · exact .single (.joinRecords c r s)
  · exact .refl

theorem acts_requestEvent (r : CtlFrame) :
    Acts c s (requestEvent r.kind r.tag r.body (answer r (effectOf c)) s) := by
  have hcan : ∀ u : State, u.clc.replies = s.clc.replies → u.clc.resetAsked = s.clc.resetAsked →
      s.canTake = true → u.canTake = true := by
    intro u h1 h2 h
    unfold State.canTake at h ⊢
    rwa [h1, h2]
  unfold requestEvent
  split
  · split
    · next h => exact .single (.request c r s h)
    · exact .refl
  · dsimp only
    split
    · next h =>
      obtain ⟨hempty, htake⟩ := h
      refine .tail (.single (.queue c ⟨r.kind, r.tag, r.body⟩ s)) (.request c r _ (hcan _ ?_ ?_ htake)) <;>
        simp [queueRequest, hempty, State.modClcCtr]
    · exact .single (.queue c _ s)

end

/-- Every command answers a next state, reached by its steps or by a stage of a device reset. -/
theorem exec_ran (c : Instr) (s : State) : ∃ t, exec c s = .next t ∧ Ran c s t := by
  cases c with
  | fabricFrameEvent syms =>
    by_cases hs : s.phase = .running
    · refine ⟨_, if_pos hs, .acts hs ?_⟩
      have hrun : ∀ (l : List LaneSym) (u : State), Acts (.fabricFrameEvent syms) u
          (l.foldl (fun s x => settle (takeSymbol s x)) u) := by
        intro l
        induction l with
        | nil => exact fun u => .refl
        | cons x l ih => exact fun u => (Relation.ReflTransGen.single (.symbol syms x u)).tail (.settle _ _) |>.trans (ih _)
      exact hrun syms s
    · exact ⟨s, if_neg hs, .nothing⟩
  | ctlTransmitComplete =>
    by_cases hs : s.phase = .running
    · by_cases hr : s.clc.resetAsked ∧ s.clc.replies = [] ∧ s.clc.tx.isSome
      · refine ⟨deviceReset .completing s, ?_, .reset _ (by decide)⟩
        unfold exec execCtlTransmitComplete onEvent
        simp only [if_pos hs, if_pos hr, settle_eq_of_settled (deviceReset_settled _ s)]
      · refine ⟨settle (lineFree s), ?_, .acts hs (.tail (.single (.lineFree s)) (.settle _ _))⟩
        unfold exec execCtlTransmitComplete onEvent
        simp only [if_pos hs, if_neg hr]
        rfl
    · exact ⟨s, if_neg hs, .nothing⟩
  | resetNAssert => exact ⟨_, rfl, .reset _ (by decide)⟩
  | resetNRelease =>
    by_cases hs : s.phase = .held
    · exact ⟨_, by unfold exec execResetNRelease; rw [if_pos hs], .release hs⟩
    · exact ⟨s, by unfold exec execResetNRelease; rw [if_neg hs], .nothing⟩
  | deviceResetComplete =>
    by_cases hs : s.phase = .completing
    · exact ⟨_, by unfold exec execDeviceResetComplete; rw [if_pos hs], .complete hs⟩
    · exact ⟨s, by unfold exec execDeviceResetComplete; rw [if_neg hs], .nothing⟩
  | occupancyReport p seq cells d => exact ran_onEvent (acts_arriveRecord (.report p seq cells d))
  | sighting h p ing srv => exact ran_onEvent (acts_arriveRecord (.sighting h p ing srv))
  | flowEnd h p g left => exact ran_onEvent (acts_arriveRecord (.flowEnd h p g left))
  | gateSpent g ep echo h => exact ran_onEvent (acts_arriveRecord (.gateSpent g ep echo h))
  | holdPressure g ep h held => exact ran_onEvent (acts_arriveRecord (.holdPressure g ep h held))
  | debounceExpiry p => exact ran_onEvent (f := debounceEvent p) (.single (.debounce p s))
  | staleExpiry p => exact ran_onEvent (f := staleEvent p) (.single (.stale p s))
  | guardExpiry p => exact ran_onEvent (f := guardEvent p) (.single (.guard p s))
  | drainExpiry p => exact ran_onEvent (f := drainEvent p) (.single (.drain p s))
  | cooldownExpiry p => exact ran_onEvent (f := cooldownEvent p) (.single (.cooldown p s))
  | agingEvent i => exact ran_onEvent (.single (.age i s))
  | idleIntervalExpiry => exact ran_onEvent (f := idleEvent) (.single (.idle s))
  | fabricTransmitComplete => exact ran_onEvent (f := laneFree) (.single (.laneFree s))
  | ctlByteReceived b => exact ran_onEvent (f := byteEvent b) (.single (.byte b s))
  | ctlFramingError => exact ran_onEvent (f := framingEvent) (.single (.framing s))
  | interByteGapExpiry => exact ran_onEvent (f := gapEvent) (.single (.gap s))
  | unknownRequest kind tag body =>
    by_cases hk : knownKind kind = true
    · rw [exec_unknownRequest_of_known hk]
      exact ran_onEvent .refl
    · rw [exec_request rfl (by simpa [kindUnknown] using hk)]
      exact ran_onEvent (acts_requestEvent _)
  | _ =>
    rw [exec_request rfl rfl]
    exact ran_onEvent (acts_requestEvent _)

/-- What the answer of a command is. -/
theorem ran_of_exec {c : Instr} {s t : State} (h : exec c s = .next t) : Ran c s t := by
  obtain ⟨u, hu, hr⟩ := exec_ran c s
  rw [hu, Host.Outcome.next.injEq] at h
  exact h ▸ hr

end Sys2Proof.Machine
end

section
/-! SUPPORT. `Mild s t`: between `s` and `t` no setting has changed, and the ranges and lists of the blocks are kept.
Every step of a command is mild but for the effects of the seven requests that write settings. -/

namespace Sys2Proof.Machine

/-! ### The Responder Table in order -/

/-- Slots in rising order, and no key twice (R38). -/
def Apart (x y : Slot × Entry) : Prop := x.1 < y.1 ∧ ¬(x.2.hash = y.2.hash ∧ x.2.port = y.2.port)

theorem Rtb.lookup_eq_none_iff {r : Rtb} {h : BitVec 32} {p : Port} :
    r.lookup h p = none ↔ ∀ x ∈ r.table, ¬(x.2.hash = h ∧ x.2.port = p) := by
  simp [Rtb.lookup, List.find?_eq_none]

theorem insertEntry_pairwise {i : Slot} {e : Entry} {l : List (Slot × Entry)} (hl : l.Pairwise Apart)
    (hslot : ∀ x ∈ l, x.1 ≠ i) (hkey : ∀ x ∈ l, ¬(x.2.hash = e.hash ∧ x.2.port = e.port)) :
    (insertEntry i e l).Pairwise Apart := by
  have before : ∀ x : Slot × Entry, ¬(x.2.hash = e.hash ∧ x.2.port = e.port) → i < x.1 → Apart (i, e) x :=
    fun x hk hi => ⟨hi, fun h => hk ⟨h.1.symm, h.2.symm⟩⟩
  induction l with
  | nil => exact List.pairwise_singleton _ _
  | cons a l ih =>
    rw [List.pairwise_cons] at hl
    simp only [List.forall_mem_cons] at hslot hkey
    unfold insertEntry
    split
    · next hlt =>
      refine List.pairwise_cons.mpr ⟨?_, List.pairwise_cons.mpr hl⟩
      intro b hb
      rcases List.mem_cons.mp hb with rfl | hb
      · exact before _ hkey.1 hlt
      · exact before b (hkey.2 b hb) (hlt.trans (hl.1 b hb).1)
    · next hge =>
      refine List.pairwise_cons.mpr ⟨?_, ih hl.2 hslot.2 hkey.2⟩
      intro b hb
      rcases List.mem_cons.mp ((insertEntry_perm i e l).mem_iff.mp hb) with rfl | hb
      · exact ⟨lt_of_le_of_ne (not_lt.mp hge) hslot.1, hkey.1⟩
      · exact hl.1 b hb

/-- A change of an entry that keeps its key keeps the table in order. -/
theorem Rtb.ok_modEntry {r : Rtb} (i : Slot) (f : Entry → Entry) (hf : ∀ e, (f e).hash = e.hash ∧ (f e).port = e.port)
    (h : r.ok) : (r.modEntry i f).ok := by
  obtain ⟨hkeys, harr⟩ := h
  refine ⟨?_, fun p => ⟨(harr p).1, fun j => ?_⟩⟩
  · have kept : ∀ x : Slot × Entry, (if x.1 = i then (x.1, f x.2) else x).1 = x.1 ∧
        (if x.1 = i then (x.1, f x.2) else x).2.hash = x.2.hash ∧
        (if x.1 = i then (x.1, f x.2) else x).2.port = x.2.port := by
      intro x
      split
      · exact ⟨rfl, hf x.2⟩
      · exact ⟨rfl, rfl, rfl⟩
    refine List.pairwise_map.mpr (hkeys.imp fun {x y} hxy => ?_)
    obtain ⟨kx1, kx2, kx3⟩ := kept x
    obtain ⟨ky1, ky2, ky3⟩ := kept y
    rw [kx1, kx2, kx3, ky1, ky2, ky3]
    exact hxy
  · rw [Rtb.entry?_modEntry]
    refine ((harr p).2 j).trans ?_
    split
    · cases he : r.entry? j with
      | none => simp
      | some e => simp [(hf e).2]
    · rfl

/-- The table without a slot. -/
theorem Rtb.remove_entry? (r : Rtb) (i j : Slot) : (r.remove i).entry? j = if j = i then none else r.entry? j := by
  unfold Rtb.remove
  cases he : r.entry? i with
  | none =>
    dsimp only
    split
    · next hj => rw [hj, he]
    · rfl
  | some e => exact Rtb.evicted_entry? r (i, e) j

theorem Rtb.ok_remove {r : Rtb} (i : Slot) (h : r.ok) : (r.remove i).ok := by
  obtain ⟨hkeys, harr⟩ := h
  have hentry := r.remove_entry? i
  unfold Rtb.remove at hentry ⊢
  cases he : r.entry? i with
  | none => exact ⟨hkeys, harr⟩
  | some e =>
    simp only [he] at hentry ⊢
    refine ⟨hkeys.filter _, fun p => ?_⟩
    obtain ⟨hnodup, hmem⟩ := harr p
    simp only [hentry, modAt_get_at]
    split
    · refine ⟨hnodup.erase i, fun j => ?_⟩
      rw [hnodup.mem_erase_iff, hmem]
      by_cases hj : j = i <;> simp [hj]
    · next hp =>
      refine ⟨hnodup, fun j => ?_⟩
      rw [hmem]
      by_cases hj : j = i
      · subst hj
        simp only [he, Option.some.injEq, if_true, reduceCtorEq, false_and, exists_false, iff_false]
        rintro ⟨_, rfl, rfl⟩
        exact hp rfl
      · rw [if_neg hj]

/-- A new entry in an empty slot, under a key that the table does not hold, keeps the table in order. -/
theorem createEntry_rtbOk {i : Slot} {h : BitVec 32} {p : Port} {ing : BitVec 6} {srv : BitVec 16} {s : State}
    (hi : s.rtb.entry? i = none) (hl : s.rtb.lookup h p = none) (hok : s.rtb.ok) :
    (createEntry i h p ing srv s).rtb.ok := by
  obtain ⟨hkeys, harr⟩ := hok
  have hfree : ∀ q : Port, i ∉ s.rtb.arrival[q] := fun q hm => by
    obtain ⟨e, he, _⟩ := ((harr q).2 i).mp hm
    rw [hi] at he
    cases he
  refine ⟨insertEntry_pairwise hkeys (Rtb.entry?_eq_none_iff.mp hi) (Rtb.lookup_eq_none_iff.mp hl), fun q => ?_⟩
  have harrival : (createEntry i h p ing srv s).rtb.arrival[q] =
      if q = p then s.rtb.arrival[q] ++ [i] else s.rtb.arrival[q] := modAt_get_at ..
  rw [harrival]
  obtain ⟨hnodup, hmem⟩ := harr q
  simp only [createEntry_entry? i h p ing srv s hi]
  split
  · next hq =>
    refine ⟨List.nodup_append.mpr ⟨hnodup, List.nodup_singleton i, ?_⟩, fun j => ?_⟩
    · intro a ha b hb hab
      rw [List.mem_singleton] at hb
      exact hfree q (hb ▸ hab ▸ ha)
    · rw [List.mem_append, List.mem_singleton, hmem]
      by_cases hj : j = i
      · simp [hj, hq, State.created, newEntry]
      · simp [hj]
  · next hq =>
    refine ⟨hnodup, fun j => ?_⟩
    rw [hmem]
    by_cases hj : j = i
    · simp [hj, hi, State.created, newEntry, Ne.symm hq]
    · simp [hj]

/-! ### The relation -/

/-- What an event leaves alone unless it writes settings, and the ranges and lists that it keeps. -/
structure Mild (s t : State) : Prop where
  pending : t.pending = s.pending
  phase : t.phase = s.phase
  pgs : t.pgs = s.pgs
  sets : t.oev.sets = s.oev.sets
  dflt : t.cmp.dflt = s.cmp.dflt
  windows : ∀ i : Fin 8, { t.cmp.windows[i] with hits := 0 } = { s.cmp.windows[i] with hits := 0 }
  config : ∀ p, (t.prcAt p).config = (s.prcAt p).config
  ageLimit : t.rtb.ageLimit = s.rtb.ageLimit
  faultLimit : t.flc.faultLimit = s.flc.faultLimit
  levels : t.ern.levels = s.ern.levels
  errOk : s.flc.errCount ≤ 255 → t.flc.errCount ≤ 255
  oevOk : (∀ p, (s.oevAt p).level ≤ (s.oevAt p).peak ∧ (s.oevAt p).peak ≤ 15) →
    ∀ p, (t.oevAt p).level ≤ (t.oevAt p).peak ∧ (t.oevAt p).peak ≤ 15
  cruOk : (∀ p, (s.cruAt p).a ≤ 16777215 ∧ (s.cruAt p).s ≤ 4294967295) →
    ∀ p, (t.cruAt p).a ≤ 16777215 ∧ (t.cruAt p).s ≤ 4294967295
  historyOk : s.ern.history.length ≤ 32 → t.ern.history.length ≤ 32
  pendingOk : s.ern.pendingOk → t.ern.pendingOk
  listsOk : s.gpm.listsOk → t.gpm.listsOk
  rtbOk : s.rtb.ok → t.rtb.ok
  requests : s.clc.requests.length ≤ 4 → t.clc.requests.length ≤ 4
  replies : t.clc.replies.length ≤ s.clc.replies.length

theorem Quiet.mild {s t : State} (h : Quiet s t) : Mild s t where
  pending := h.pending
  phase := h.phase
  pgs := h.pgs
  sets := h.sets
  dflt := by rw [h.cmp]
  windows _ := by rw [h.cmp]
  config := h.config
  ageLimit := h.ageLimit
  faultLimit := by rw [h.flc]
  levels := h.levels
  errOk := by rw [h.flc]; exact id
  oevOk := h.oevOk
  cruOk := h.cruOk
  historyOk := h.historyOk
  pendingOk := h.pendingOk
  listsOk := h.listsOk
  rtbOk := h.rtbOk
  requests := by rw [h.clc]; exact id
  replies := by rw [h.clc]

theorem Mild.refl (s : State) : Mild s s := (Quiet.refl s).mild

theorem Mild.trans {s t u : State} (h : Mild s t) (k : Mild t u) : Mild s u where
  pending := k.pending.trans h.pending
  phase := k.phase.trans h.phase
  pgs := k.pgs.trans h.pgs
  sets := k.sets.trans h.sets
  dflt := k.dflt.trans h.dflt
  windows i := (k.windows i).trans (h.windows i)
  config p := (k.config p).trans (h.config p)
  ageLimit := k.ageLimit.trans h.ageLimit
  faultLimit := k.faultLimit.trans h.faultLimit
  levels := k.levels.trans h.levels
  errOk := k.errOk ∘ h.errOk
  oevOk := k.oevOk ∘ h.oevOk
  cruOk := k.cruOk ∘ h.cruOk
  historyOk := k.historyOk ∘ h.historyOk
  pendingOk := k.pendingOk ∘ h.pendingOk
  listsOk := k.listsOk ∘ h.listsOk
  rtbOk := k.rtbOk ∘ h.rtbOk
  requests := k.requests ∘ h.requests
  replies := k.replies.trans h.replies

theorem Mild.fold {α : Type} {f : State → α → State} (hf : ∀ s a, Mild s (f s a)) (l : List α) (s : State) :
    Mild s (l.foldl f s) := by
  induction l generalizing s with
  | nil => exact .refl s
  | cons a l ih => exact (hf s a).trans (ih (f s a))

/-! ### The updates of single blocks -/

section
variable (s : State)

theorem mild_flc (f : Flc) (hlimit : f.faultLimit = s.flc.faultLimit) (herr : s.flc.errCount ≤ 255 → f.errCount ≤ 255) :
    Mild s { s with flc := f } :=
  { Mild.refl s with faultLimit := hlimit, errOk := herr }

theorem mild_modLink (f : LinkCounters → LinkCounters) : Mild s (s.modLink f) := mild_flc s _ rfl id

theorem mild_clc (c : Clc) (hreq : s.clc.requests.length ≤ 4 → c.requests.length ≤ 4)
    (hrep : c.replies.length ≤ s.clc.replies.length) : Mild s { s with clc := c } :=
  { Mild.refl s with requests := hreq, replies := hrep }

theorem mild_modClcCtr (f : ClcCounters → ClcCounters) : Mild s (s.modClcCtr f) := mild_clc s _ id le_rfl

theorem mild_rtb (r : Rtb) (hage : r.ageLimit = s.rtb.ageLimit) (hok : s.rtb.ok → r.ok) : Mild s { s with rtb := r } :=
  { Mild.refl s with ageLimit := hage, rtbOk := hok }

theorem mild_modRtbCtr (f : RtbCounters → RtbCounters) : Mild s (s.modRtbCtr f) := mild_rtb s _ rfl id

theorem mild_modEntry (i : Slot) (f : Entry → Entry) (hf : ∀ e, (f e).hash = e.hash ∧ (f e).port = e.port) :
    Mild s (s.modEntry i f) := mild_rtb s _ rfl (Rtb.ok_modEntry i f hf)

theorem mild_removeEntry (i : Slot) : Mild s (s.removeEntry i) :=
  mild_rtb s _ (by unfold Rtb.remove; split <;> rfl) (Rtb.ok_remove i)

theorem mild_ern (e : Ern) (hlevels : e.levels = s.ern.levels)
    (hhist : s.ern.history.length ≤ 32 → e.history.length ≤ 32) (hpend : s.ern.pendingOk → e.pendingOk) :
    Mild s { s with ern := e } :=
  { Mild.refl s with levels := hlevels, historyOk := hhist, pendingOk := hpend }

theorem mild_raiseDevice (c : NoticeClass) (v : Nat) (hc : c.deviceScope) : Mild s (s.raiseDevice c v) :=
  (quiet_raise s c none 0 v ⟨fun _ => hc, fun _ => rfl⟩).mild

theorem mild_offer (k : FaultKind) (seq : BitVec 16) (i : Nat) : Mild s (s.offer k seq i) := by
  unfold State.offer Ern.offer
  split <;> exact mild_ern s _ rfl id id

theorem mild_setLink (l : LinkState) : Mild s (s.setLink l) :=
  (mild_flc s { s.flc with link := l } rfl id).trans (mild_raiseDevice _ _ _ (by simp [NoticeClass.deviceScope]))

theorem mild_oev (o : Oev) (hsets : o.sets = s.oev.sets)
    (hok : (∀ p, (s.oevAt p).level ≤ (s.oevAt p).peak ∧ (s.oevAt p).peak ≤ 15) →
      ∀ p : Port, (o.port[p]).level ≤ (o.port[p]).peak ∧ (o.port[p]).peak ≤ 15) : Mild s { s with oev := o } :=
  { Mild.refl s with sets := hsets, oevOk := hok }

theorem mild_cru (c : Cru) (hok : (∀ p, (s.cruAt p).a ≤ 16777215 ∧ (s.cruAt p).s ≤ 4294967295) →
    ∀ p : Port, (c.port[p]).a ≤ 16777215 ∧ (c.port[p]).s ≤ 4294967295) : Mild s { s with cru := c } :=
  { Mild.refl s with cruOk := hok }

theorem mild_free (n : Nat) : Mild s { s with free := n } := { Mild.refl s with }

end

/-! ### The transmitters -/

theorem Gpm.takeBatch_listsOk {m : Gpm} (h : m.listsOk) : m.takeBatch.listsOk := by
  obtain ⟨hfifo, hfree, hbound⟩ := h
  refine ⟨hfifo.sublist (List.drop_sublist 32 _), by rw [Gpm.takeBatch_free]; exact hfree, fun g => ?_⟩
  obtain ⟨_, hb, _⟩ := m.takeBatch_sameWanted g
  rw [Gpm.takeBatch_free, hb]
  exact hbound g

theorem mild_beginFrame (records : List (List Byte)) (s : State) : Mild s (beginFrame records s) :=
  mild_flc s (beginFrame records s).flc rfl id

theorem mild_fabPump (s : State) : Mild s (fabPump s) := by
  unfold fabPump
  split
  · exact .refl s
  split
  · have h := mild_flc s (beginOrderFrame s).flc rfl id
    exact h.trans (quiet_gpm { s with flc := (beginOrderFrame s).flc } s.gpm.takeBatch Gpm.takeBatch_listsOk).mild
  split
  · exact mild_beginFrame [] s
  split
  · exact (mild_flc s { s.flc with rx := .hunting, idle := .stopped } rfl id).trans (mild_setLink _ _)
  · exact .refl s

theorem mild_ctlPump (s : State) : Mild s (ctlPump s) := by
  unfold ctlPump
  split
  · exact .refl s
  split
  · next r rest hr => exact mild_clc s _ id (by rw [hr]; exact Nat.le_succ _)
  split
  · exact .refl s
  · next n _ =>
    have hern := mild_ern s { s.ern with pendingSet := s.ern.pendingSet.erase n, sent := sat32 (s.ern.sent + 1) } rfl id
      fun h => ⟨h.1.sublist List.erase_sublist, fun m hm => h.2 m (List.mem_of_mem_erase hm)⟩
    exact hern.trans (mild_clc _ _ id le_rfl)

theorem mild_settle (s : State) : Mild s (settle s) := (mild_fabPump s).trans (mild_ctlPump _)

/-! ### The lane -/

theorem clearTables_oevAt (s : State) (p : Port) : (clearTables s).oevAt p = (s.oevAt p).teardown := by
  simp [clearTables, State.oevAt]

theorem clearTables_cruAt (s : State) (p : Port) : (clearTables s).cruAt p = ⟨0, 0⟩ := by
  simp [clearTables, State.cruAt]

theorem clearTables_aduAt (s : State) (p : Port) : (clearTables s).aduAt p = ⟨[], []⟩ := by
  simp [clearTables, State.aduAt]

theorem clearTables_arrival (s : State) (p : Port) : (clearTables s).rtb.arrival[p] = [] := by
  simp [clearTables]

theorem clearTables_rtb_ok (s : State) : (clearTables s).rtb.ok :=
  ⟨List.Pairwise.nil, fun p => by rw [clearTables_arrival]; exact ⟨List.nodup_nil, by simp [clearTables, Rtb.entry?]⟩⟩

@[simp] theorem clearTables_sets (s : State) : (clearTables s).oev.sets = s.oev.sets := by simp only [clearTables]

theorem clearTables_oev_zero (s : State) (p : Port) : ((clearTables s).oev.port[p]).level = 0 ∧
    ((clearTables s).oev.port[p]).peak = 0 := by simp [clearTables, OevPort.teardown]

theorem clearTables_cru_zero (s : State) (p : Port) : (clearTables s).cru.port[p] = ⟨0, 0⟩ := by simp [clearTables]

theorem mild_clearTables (s : State) : Mild s (clearTables s) := by
  have hoev : ∀ p : Port, ((clearTables s).oev.port[p]).level ≤ ((clearTables s).oev.port[p]).peak ∧
      ((clearTables s).oev.port[p]).peak ≤ 15 := fun p => by
    obtain ⟨hlevel, hpeak⟩ := clearTables_oev_zero s p
    omega
  have hcru : ∀ p : Port, ((clearTables s).cru.port[p]).a ≤ 16777215 ∧
      ((clearTables s).cru.port[p]).s ≤ 4294967295 := fun p => by
    rw [clearTables_cru_zero]
    decide
  refine Mild.trans (mild_flc s { s.flc with handed := [] } rfl id) ?_
  refine Mild.trans (mild_rtb _ (clearTables s).rtb rfl fun _ => clearTables_rtb_ok s) ?_
  refine Mild.trans (mild_oev _ (clearTables s).oev (clearTables_sets s) fun _ => hoev) ?_
  refine Mild.trans (mild_cru _ (clearTables s).cru fun _ => hcru) ?_
  exact (quiet_adu _ (clearTables s).adu).mild

theorem mild_teardown (o : EpisodeOutcome) (s : State) : Mild s (teardown o s) :=
  ((Quiet.fold (quiet_teardownPort o) _ s).trans (Quiet.fold (fun u i => quiet_freeGateOf i u) _ _)).mild.trans
    (mild_clearTables _)

theorem mild_declareFault (s : State) : Mild s (declareFault s) :=
  (((mild_modLink s _).trans (mild_setLink _ _)).trans
    (mild_raiseDevice _ _ _ (by simp [NoticeClass.deviceScope]))).trans (mild_teardown _ _)

theorem mild_raiseErrors (s : State) : Mild s (raiseErrors s) := by
  unfold raiseErrors
  have h := mild_flc s { s.flc with errCount := min 255 (s.flc.errCount + 1) } rfl fun _ => Nat.min_le_left ..
  dsimp only
  split
  · exact h.trans (mild_declareFault _)
  · exact h

theorem mild_examineRecord (seq : BitVec 16) (s : State) (x : List Byte × Nat) : Mild s (examineRecord seq s x) := by
  unfold examineRecord
  split
  · exact mild_flc s _ rfl id
  · exact ((mild_modLink s _).trans (mild_offer _ _ _ _)).trans
      (mild_raiseDevice _ _ _ (by simp [NoticeClass.deviceScope]))

theorem mild_examineRecords (seq : BitVec 16) (records : List (List Byte)) (s : State) :
    Mild s (examineRecords seq records s) := Mild.fold (mild_examineRecord seq) _ s

theorem mild_countTaken (seq : BitVec 16) (s : State) : Mild s (countTaken seq s) :=
  (mild_flc s { s.flc with expected := seq + 1 } rfl id).trans (mild_modLink _ _)

theorem mild_countMalformed (seq : Option (BitVec 16)) (s : State) : Mild s (countMalformed seq s) :=
  (mild_modLink s _).trans (mild_offer _ _ _ _)

theorem mild_clearErrors (s : State) : Mild s { s with flc := { s.flc with errCount := 0 } } :=
  mild_flc s _ rfl fun _ => Nat.zero_le _

theorem mild_takeFrameEvent (e : FrameEvent) (s : State) : Mild s (takeFrameEvent e s) := by
  unfold takeFrameEvent
  split
  · exact .refl s
  · exact mild_modLink s _
  · exact mild_modLink s _
  · exact (((mild_clearErrors s).trans (mild_countTaken _ _)).trans (mild_setLink _ _)).trans (mild_examineRecords _ _ _)
  · exact mild_countMalformed _ s
  · split
    · exact ((mild_clearErrors s).trans (mild_countTaken _ _)).trans (mild_examineRecords _ _ _)
    · unfold takeOutOfSequence
      have h := fun seq => (((mild_modLink s fun c =>
        { c with lost := sat32 (c.lost + (seq - s.flc.expected).toNat) }).trans (mild_countTaken seq _)).trans
          (mild_offer _ .sequence seq 32)).trans (mild_raiseErrors _)
      dsimp only
      split
      · exact (h _).trans (mild_examineRecords _ _ _)
      · exact (h _).trans (mild_modLink _ _)
  · exact (mild_countMalformed _ s).trans (mild_raiseErrors _)

theorem mild_takeSymbol (s : State) (x : LaneSym) : Mild s (takeSymbol s x) := by
  unfold takeSymbol
  split
  · exact .refl s
  · have h := mild_flc s { s.flc with rx := (s.flc.rx.next x).1 } rfl id
    dsimp only
    split
    · exact h
    · exact h.trans (mild_takeFrameEvent _ _)

/-! ### Occupancy reports -/

/-- The levels met among the first thresholds, as a fold. -/
theorem levelOf_fold (t : Vector Nat 15) (q n : Nat) (hn : n ≤ 15) :
    let r := ((List.finRange 15).take n).foldl (fun l i => if t[i] ≤ q then i.val + 1 else l) 0
    r ≤ n ∧ (∀ i : Fin 15, r = i.val + 1 → t[i] ≤ q) ∧ ∀ i : Fin 15, i.val < n → t[i] ≤ q → i.val + 1 ≤ r := by
  induction n with
  | zero => simp
  | succ n ih =>
    obtain ⟨h1, h2, h3⟩ := ih (by omega)
    have htake : (List.finRange 15).take (n + 1) = (List.finRange 15).take n ++ [⟨n, by omega⟩] := by
      rw [List.take_succ_eq_append_getElem (by simpa using hn)]
      simp
    simp only [htake, List.foldl_append, List.foldl_cons, List.foldl_nil]
    split
    · next ht =>
      refine ⟨le_rfl, fun i hi => ?_, fun i hi _ => by omega⟩
      obtain ⟨i, _⟩ := i
      obtain rfl : n = i := by simpa using hi
      exact ht
    · next ht =>
      refine ⟨by omega, h2, fun i hi hq => ?_⟩
      rcases Nat.lt_succ_iff_lt_or_eq.mp hi with hlt | heq
      · exact h3 i hlt hq
      · obtain ⟨i, _⟩ := i
        obtain rfl : i = n := heq
        exact absurd hq ht

/-- The level of a queue depth is the largest i with Q at or above Ti (R29). -/
theorem levelOf_spec (t : Vector Nat 15) (q : Nat) : levelOf t q ≤ 15 ∧
    (∀ i : Fin 15, levelOf t q = i.val + 1 → t[i] ≤ q) ∧ ∀ i : Fin 15, t[i] ≤ q → i.val + 1 ≤ levelOf t q := by
  obtain ⟨h1, h2, h3⟩ := levelOf_fold t q 15 le_rfl
  rw [List.take_of_length_le (by simp)] at h1 h2 h3
  exact ⟨h1, h2, fun i => h3 i i.isLt⟩

theorem quiet_acceptReport (p : Port) (seq cells : BitVec 16) (d : BitVec 32) (n : Nat) (s : State) :
    Quiet s (acceptReport p seq cells d n s) := by
  unfold acceptReport
  refine (quiet_modOev s p _ fun o ho => ?_).trans (quiet_reportToPrc _ _ _ _)
  exact ⟨Nat.le_max_right _ _, Nat.max_le.mpr ⟨ho.2, (levelOf_spec _ _).1⟩⟩

theorem quiet_takeReport (p : Port) (seq cells : BitVec 16) (d : BitVec 32) (s : State) :
    Quiet s (takeReport p seq cells d s) := by
  unfold takeReport
  dsimp only
  split
  · exact quiet_acceptReport ..
  split
  · exact quiet_acceptReport ..
  · exact quiet_modOev s p _ fun _ ho => ho

/-! ### Sightings, Flow Ends and aging -/

theorem Cmp.hit_keeps (w : Option (Fin 8)) (c : Cmp) : (c.hit w).dflt = c.dflt ∧
    ∀ i : Fin 8, { (c.hit w).windows[i] with hits := 0 } = { c.windows[i] with hits := 0 } := by
  unfold Cmp.hit
  cases w with
  | none => exact ⟨rfl, fun _ => rfl⟩
  | some v =>
    refine ⟨rfl, fun i => ?_⟩
    rw [modAt_get_at]
    split <;> rfl

theorem mild_createEntry {i : Slot} {h : BitVec 32} {p : Port} (ing : BitVec 6) (srv : BitVec 16) {s : State}
    (hi : s.rtb.entry? i = none) (hl : s.rtb.lookup h p = none) : Mild s (createEntry i h p ing srv s) :=
  { Mild.refl s with
    dflt := (Cmp.hit_keeps _ _).1
    windows := (Cmp.hit_keeps _ _).2
    rtbOk := createEntry_rtbOk hi hl }

theorem quiet_handOver (i : Slot) (p : Port) (was : PortState) (s : State) : Quiet s (handOver i p was s) := by
  unfold handOver
  dsimp only
  split
  · exact (quiet_checkOpening p s).trans (quiet_arrive p i _)
  · exact quiet_checkOpening p s

theorem mild_learn {h : BitVec 32} {p : Port} (ing : BitVec 6) (srv : BitVec 16) {s : State}
    (hl : s.rtb.lookup h p = none) : Mild s (learn h p ing srv s) := by
  unfold learn
  split
  · exact .refl s
  · next i hi =>
    have hempty : s.rtb.entry? i = none := by simpa using (find?_finRange_eq_some.mp hi).1
    have hc := mild_createEntry ing srv hempty hl
    dsimp only
    split
    · exact hc.trans (quiet_handOver ..).mild
    · exact hc

theorem mild_evict (i : Slot) (s : State) : Mild s (evict i s) := (mild_removeEntry s i).trans (mild_modRtbCtr _ _)

theorem mild_loseSighting (s : State) : Mild s (loseSighting s) :=
  (mild_modRtbCtr s _).trans (mild_raiseDevice _ _ _ (by simp [NoticeClass.deviceScope]))

/-- The table of a removal. -/
theorem Rtb.remove_table (r : Rtb) (i : Slot) : (r.remove i).table = r.table.filter fun x => x.1 ≠ i := by
  unfold Rtb.remove
  cases he : r.entry? i with
  | none =>
    have hno := Rtb.entry?_eq_none_iff.mp he
    exact (List.filter_eq_self.mpr fun x hx => by simpa using hno x hx).symm
  | some e => rfl

theorem evict_lookup {h : BitVec 32} {p : Port} {s : State} (i : Slot) (hl : s.rtb.lookup h p = none) :
    (evict i s).rtb.lookup h p = none := by
  rw [Rtb.lookup_eq_none_iff] at hl ⊢
  intro x hx
  have hx : x ∈ (s.rtb.remove i).table := hx
  rw [Rtb.remove_table] at hx
  exact hl x (List.mem_of_mem_filter hx)

theorem mild_takeSighting (h : BitVec 32) (p : Port) (ing : BitVec 6) (srv : BitVec 16) (s : State) :
    Mild s (takeSighting h p ing srv s) := by
  unfold takeSighting
  split
  · next i _ _ =>
    exact (mild_modEntry s i (fun e => { e with lastActivity := s.now }) fun _ => ⟨rfl, rfl⟩).trans
      (mild_modRtbCtr _ _)
  · next hl =>
    split
    · exact mild_learn ing srv hl
    split
    · exact (mild_evict _ s).trans (mild_learn ing srv (evict_lookup _ hl))
    · exact mild_loseSighting s

theorem mild_endAdmitted (i : Slot) (p : Port) (held named : Option GateRef) (left : Nat) (s : State) :
    Mild s (endAdmitted i p held named left s) := by
  unfold endAdmitted
  dsimp only
  refine Mild.trans ?_ ((quiet_refill p _).trans (quiet_rerate p _)).mild
  refine Mild.trans (Quiet.mild ?_) (mild_removeEntry _ i)
  refine Quiet.trans ?_ (((quiet_freeGateOf i _).trans (quiet_modAdu _ p _)).trans (quiet_modEpisode _ p _))
  split
  · exact quiet_addToPool ..
  · exact Quiet.refl s

theorem mild_endWaiting (i : Slot) (p : Port) (s : State) : Mild s (endWaiting i p s) :=
  (((quiet_freeGateOf i s).trans (quiet_modAdu _ p _)).trans (quiet_modEpisode _ p _)).mild.trans (mild_removeEntry _ i)

theorem mild_endEntry (i : Slot) (e : Entry) (named : Option GateRef) (left : Nat) (s : State) :
    Mild s (endEntry i e named left s) := by
  unfold endEntry
  dsimp only
  have hcount : Mild s (if gateMismatch e.gate named then
      s.modRtbCtr fun c => { c with gateMismatches := sat32 (c.gateMismatches + 1) } else s) := by
    split
    · exact mild_modRtbCtr s _
    · exact .refl s
  refine hcount.trans ?_
  generalize (if gateMismatch e.gate named then
      s.modRtbCtr fun c => { c with gateMismatches := sat32 (c.gateMismatches + 1) } else s) = u
  split
  · exact mild_endAdmitted ..
  · exact mild_endWaiting ..
  · exact (quiet_freeGateOf i u).mild.trans (mild_removeEntry _ i)
  all_goals exact mild_removeEntry u i

theorem mild_takeFlowEnd (h : BitVec 32) (p : Port) (named : Option GateRef) (left : Nat) (s : State) :
    Mild s (takeFlowEnd h p named left s) := by
  unfold takeFlowEnd
  refine (mild_modRtbCtr s fun c => { c with flowEnds := sat32 (c.flowEnds + 1) }).trans ?_
  dsimp only
  split
  · exact mild_modRtbCtr _ _
  · exact mild_endEntry ..

theorem mild_ageOut (i : Slot) (s : State) : Mild s (ageOut i s) := by
  unfold ageOut
  split
  · exact (mild_removeEntry s i).trans (mild_modRtbCtr _ _)
  · exact .refl s

/-! ### Gate reports -/

theorem quiet_counters (s : State) (m : Gpm) (hf : m.fifo = s.gpm.fifo) (hr : m.free = s.gpm.free)
    (hg : m.gates = s.gpm.gates) : Quiet s { s with gpm := m } :=
  quiet_gpm s m fun h => by unfold Gpm.listsOk Gpm.gate at *; rw [hf, hr, hg]; exact h

theorem quiet_markDry (i : Slot) (s : State) : Quiet s (markDry i s) := by
  unfold markDry
  split
  · exact quiet_counters s _ rfl rfl rfl
  split
  · exact quiet_modEntry s i _ fun _ => rfl
  · exact quiet_counters s _ rfl rfl rfl

theorem quiet_takeGateSpent (g : GateNo) (ep : BitVec 4) (echo : BitVec 8) (h : BitVec 32) (s : State) :
    Quiet s (takeGateSpent g ep echo h s) := by
  unfold takeGateSpent
  split
  · have hcount := quiet_counters s { s.gpm with validSpent := sat32 (s.gpm.validSpent + 1) } rfl rfl rfl
    dsimp only
    split
    · exact hcount.trans (quiet_markDry ..)
    · exact hcount
  · exact quiet_counters s _ rfl rfl rfl

theorem quiet_takeHoldPressure (g : GateNo) (ep : BitVec 4) (h : BitVec 32) (held : BitVec 24) (s : State) :
    Quiet s (takeHoldPressure g ep h held s) := by
  unfold takeHoldPressure
  split
  · have hcount := quiet_counters s { s.gpm with validHold := sat32 (s.gpm.validHold + 1) } rfl rfl rfl
    dsimp only
    split
    · exact hcount.trans (quiet_holdPressureOn ..)
    · exact hcount
  · exact quiet_counters s _ rfl rfl rfl

/-! ### The expiries -/

theorem quiet_debounceEvent (p : Port) (s : State) : Quiet s (debounceEvent p s) := by
  unfold debounceEvent
  split
  · refine Quiet.trans ?_ (quiet_checkOpening ..)
    exact quiet_modPrc s p _ fun _ => rfl
  · exact Quiet.refl s

theorem quiet_staleEvent (p : Port) (s : State) : Quiet s (staleEvent p s) := by
  unfold staleEvent
  dsimp only
  split
  · have h := quiet_modPrc s p (fun q => { q with stale := .stopped }) fun _ => rfl
    split
    · exact h.trans (quiet_enterPort ..)
    · exact (h.trans (quiet_raiseEpisode _ _ _ _ (by simp [NoticeClass.deviceScope]))).trans (quiet_endEpisode ..)
  · exact Quiet.refl s

theorem quiet_guardEvent (p : Port) (s : State) : Quiet s (guardEvent p s) := by
  unfold guardEvent
  split
  · refine Quiet.trans ?_ (quiet_endStep ..)
    refine Quiet.trans ?_ (quiet_modEpisode _ p _)
    exact quiet_modPrc s p _ fun _ => rfl
  · exact Quiet.refl s

theorem quiet_drainEvent (p : Port) (s : State) : Quiet s (drainEvent p s) := by
  unfold drainEvent
  split
  · refine Quiet.trans ?_ (quiet_endEpisode ..)
    refine Quiet.trans ?_ (quiet_raiseEpisode _ _ _ _ (by simp [NoticeClass.deviceScope]))
    exact quiet_modPrc s p _ fun _ => rfl
  · exact Quiet.refl s

theorem quiet_cooldownEvent (p : Port) (s : State) : Quiet s (cooldownEvent p s) := by
  unfold cooldownEvent
  split
  · exact quiet_enterPort ..
  · exact Quiet.refl s

theorem mild_idleEvent (s : State) : Mild s (idleEvent s) := by
  unfold idleEvent
  split
  · split
    · exact mild_flc s _ rfl id
    · exact .refl s
  · exact .refl s

/-! ### The control receiver and the request queue -/

theorem mild_lineError (c : LineCause) (s : State) : Mild s (lineError c s) :=
  (mild_modClcCtr s _).trans (mild_raiseDevice _ _ _ (by simp [NoticeClass.deviceScope]))

theorem mild_discardFrame (c : LineCause) (s : State) : Mild s (discardFrame c s) :=
  (mild_clc s { s.clc with rx := .hunting, gap := .stopped } id le_rfl).trans (mild_lineError _ _)

theorem mild_queueRequest (r : CtlFrame) (s : State) : Mild s (queueRequest r s) := by
  unfold queueRequest
  split
  · next h =>
    refine (mild_clc s { s.clc with requests := s.clc.requests ++ [r] } (fun _ => ?_) le_rfl).trans (mild_modClcCtr _ _)
    simpa using h
  · exact mild_lineError _ s

theorem mild_keepReading (got : List Byte) (s : State) : Mild s (keepReading got s) := mild_clc s _ id le_rfl

theorem mild_readByte (got : List Byte) (s : State) : Mild s (readByte got s) := by
  unfold readByte
  dsimp only
  split
  · exact mild_keepReading got s
  split
  · split
    · exact mild_discardFrame _ s
    · exact mild_keepReading got s
  split
  · exact mild_keepReading got s
  split
  · exact (mild_clc s { s.clc with rx := .hunting, gap := .stopped } id le_rfl).trans (mild_queueRequest _ _)
  · exact mild_discardFrame _ s

theorem mild_byteEvent (b : Byte) (s : State) : Mild s (byteEvent b s) := by
  unfold byteEvent
  split
  · split
    · exact mild_keepReading [] s
    · exact mild_modClcCtr s _
  · exact mild_readByte _ s

theorem mild_framingEvent (s : State) : Mild s (framingEvent s) := by
  unfold framingEvent
  split
  · exact mild_modClcCtr s _
  · exact mild_discardFrame _ s

theorem mild_gapEvent (s : State) : Mild s (gapEvent s) := by
  unfold gapEvent
  split
  · exact mild_discardFrame _ s
  · exact .refl s

theorem mild_dropHead (s : State) : Mild s (dropHead s) :=
  mild_clc s _ (fun h => (List.length_tail (l := s.clc.requests)).trans_le ((Nat.sub_le _ _).trans h)) le_rfl

end Sys2Proof.Machine
end

section
/-! SUPPORT. The bodies of the requests that write settings: the checks of a body in their order, and that a body which
passes them gives a legal setting (R33, R61, R64, R65, R68, R73, R74, R76, R85). -/

namespace Sys2Proof.Machine

/-! ### Checks in their order -/

/-- The first check that fails, each written with its code; the value when none does. -/
def firstFailed {α : Type} (checks : List (Byte × Bool)) (x : α) : Except Nat α :=
  match checks.find? (·.2) with
  | some c => .error c.1.toNat
  | none => .ok x

theorem firstFailed_nil {α : Type} (x : α) : firstFailed [] x = .ok x := rfl

theorem firstFailed_cons {α : Type} (c : Byte) (b : Bool) (l : List (Byte × Bool)) (x : α) :
    firstFailed ((c, b) :: l) x = if b = true then .error c.toNat else firstFailed l x := by
  unfold firstFailed
  cases b <;> simp

theorem firstFailed_of_some {α : Type} {l : List (Byte × Bool)} {c : Byte × Bool} (x : α) (h : l.find? (·.2) = some c) :
    firstFailed l x = .error c.1.toNat := by
  unfold firstFailed
  rw [h]

theorem firstFailed_of_none {α : Type} {l : List (Byte × Bool)} (x : α) (h : l.find? (·.2) = none) :
    firstFailed l x = .ok x := by
  unfold firstFailed
  rw [h]

theorem firstFailed_ok {α : Type} {l : List (Byte × Bool)} {x y : α} (h : firstFailed l x = .ok y) :
    y = x ∧ l.find? (·.2) = none := by
  cases hl : l.find? (·.2) with
  | some c => rw [firstFailed_of_some x hl] at h; cases h
  | none => rw [firstFailed_of_none x hl, Except.ok.injEq] at h; exact ⟨h.symm, rfl⟩

/-! ### SET_PORT -/

/-- The checks of SET_PORT, each with the position of its field (Table 6-1, R85). -/
def portChecks (b : List Byte) : List (Byte × Bool) :=
  let f := fieldAt b
  [(1, decide (15 < f 1 1)), (2, decide (3 < f 2 1)),
    (3, f 3 1 == 0 || decide (15 < f 3 1)), (4, decide (14 < f 4 1)), (6, f 7 1 == 0),
    (8, f 10 4 == 0 || decide (16777215 < f 10 4)), (9, decide (16777215 < f 14 4)), (10, decide (1 < f 18 1)),
    (4, decide (f 3 1 ≤ f 4 1))]

/-- The configuration that a body of SET_PORT lays out (Table 6-1). -/
def PortConfig.ofBody (b : List Byte) : PortConfig where
  program := Fin.ofNat 16 (fieldAt b 1 1)
  levelSet := Fin.ofNat 4 (fieldAt b 2 1)
  lw := fieldAt b 3 1
  ld := fieldAt b 4 1
  td := fieldAt b 5 2
  fanIn := fieldAt b 7 1
  ts := max 1 (fieldAt b 8 2)
  tdr := fieldAt b 10 4
  tc := fieldAt b 14 4
  stall := if fieldAt b 18 1 = 0 then .cooldown else .disarm

theorem readPortConfig_eq (b : List Byte) : readPortConfig b = firstFailed (portChecks b) (PortConfig.ofBody b) := by
  simp only [portChecks, firstFailed_cons, firstFailed_nil, Bool.or_eq_true, beq_iff_eq, decide_eq_true_eq]
  rfl

/-- A configuration that SET_PORT stores is in range, with Ld below Lw (R85). -/
theorem readPortConfig_ok {b : List Byte} {c : PortConfig} (h : readPortConfig b = .ok c) : c.ok := by
  rw [readPortConfig_eq] at h
  obtain ⟨rfl, hnone⟩ := firstFailed_ok h
  simp only [portChecks, List.find?_eq_none, List.forall_mem_cons, Bool.or_eq_true, beq_iff_eq, decide_eq_true_eq,
    List.not_mem_nil, false_imp_iff, implies_true, and_true] at hnone
  have h5 := fieldAt_lt b 5 2
  have h7 := fieldAt_lt b 7 1
  have h8 := fieldAt_lt b 8 2
  unfold PortConfig.ok PortConfig.ofBody
  dsimp only
  omega

/-! ### SET_LEVELS -/

/-- No threshold of a level set without a descent is below the one before it (R33). -/
theorem firstDescent_eq_none {t : Vector Nat 15} :
    firstDescent t = none ↔ ∀ j (h : j < 14), t[j] ≤ t[j + 1] := by
  unfold firstDescent
  simp only [Option.map_eq_none_iff, List.find?_eq_none, List.mem_range, decide_eq_true_eq, not_lt]
  refine forall_congr' fun j => forall_congr' fun hj => ?_
  rw [getElem!_pos t j (by omega), getElem!_pos t (j + 1) (by omega)]

theorem rises_of_no_descent {t : Vector Nat 15} (h : ∀ j (hj : j < 14), t[j] ≤ t[j + 1]) (i j : Fin 15)
    (hij : i ≤ j) : t[i] ≤ t[j] := by
  obtain ⟨i, hi⟩ := i
  obtain ⟨j, hj⟩ := j
  have hij : i ≤ j := hij
  induction j, hij using Nat.le_induction with
  | base => exact le_rfl
  | succ k hk ih => exact (ih (by omega) hk).trans (h k (by omega))

theorem readThresholds_get (b : List Byte) (i : Fin 15) : (readThresholds b)[i] = fieldAt b (1 + 2 * i.val) 2 := by
  simp [readThresholds]

theorem readThresholds_ok {b : List Byte} (h : firstDescent (readThresholds b) = none) :
    levelSetOk (readThresholds b) := by
  refine ⟨fun i => ?_, rises_of_no_descent (firstDescent_eq_none.mp h)⟩
  rw [readThresholds_get]
  have := fieldAt_lt b (1 + 2 * i.val) 2
  omega

/-! ### SET_WINDOW and SET_DEFAULT_CLASS -/

theorem storedCap_ok (n : Nat) : capOk (storedCap n) := by
  unfold capOk storedCap
  omega

/-- The RANGE checks of SET_WINDOW, each with its field code (R64). -/
def windowChecks (b : List Byte) : List (Byte × Bool) :=
  let f := fieldAt b
  [(0, decide (7 < f 0 1)), (1, decide (15 < f 4 1)), (2, decide (3 < f 7 1)),
    (3, decide (1 < f 1 1)), (4, decide (1 < f 5 1)), (5, decide (1 < f 6 1))]

/-- The window that a body of SET_WINDOW lays out (Table 4-1). -/
def Window.ofBody (b : List Byte) : Window where
  enable := fieldAt b 1 1 == 1
  base := BitVec.ofNat 16 (fieldAt b 2 2)
  size := Fin.ofNat 16 (fieldAt b 4 1)
  rank := if fieldAt b 5 1 = 0 then .pinned else .broad
  params := ⟨fieldAt b 6 1 == 1, Fin.ofNat 4 (fieldAt b 7 1), storedCap (fieldAt b 8 4)⟩
  hits := 0

theorem readWindow_eq (b : List Byte) :
    readWindow b = firstFailed (windowChecks b) (Fin.ofNat 8 (fieldAt b 0 1), Window.ofBody b) := by
  simp only [windowChecks, firstFailed_cons, firstFailed_nil, decide_eq_true_eq]
  rfl

theorem readWindow_cap {b : List Byte} {i : Fin 8} {w : Window} (h : readWindow b = .ok (i, w)) :
    capOk w.params.cap := by
  rw [readWindow_eq] at h
  obtain ⟨hw, _⟩ := firstFailed_ok h
  rw [(Prod.mk.inj hw).2]
  exact storedCap_ok _

theorem readDefaultClass_cap {b : List Byte} {c : ClassParams} (h : readDefaultClass b = .ok c) : capOk c.cap := by
  unfold readDefaultClass at h
  split_ifs at h
  rw [Except.ok.injEq] at h
  rw [← h]
  exact storedCap_ok _

/-- A service number that agrees with a base under one shift agrees with it under every larger one. -/
theorem shiftRight_widen {n b : BitVec 16} {k m : Nat} (hkm : k ≤ m) (h : n >>> k = b >>> k) : n >>> m = b >>> m := by
  obtain ⟨d, rfl⟩ := Nat.exists_eq_add_of_le hkm
  rw [BitVec.shiftRight_add, BitVec.shiftRight_add, h]

/-- Windows that share a service number overlap (R65). -/
theorem overlaps_of_covers {a b : Window} {n : BitVec 16} (ha : a.covers n = true) (hb : b.covers n = true) :
    a.overlaps b = true := by
  unfold Window.covers Window.overlaps at *
  rw [beq_iff_eq] at *
  rw [← shiftRight_widen (Nat.le_max_left ..) ha, ← shiftRight_widen (Nat.le_max_right ..) hb]

/-! ### WRITE_PROGRAM -/

/-- Items 3 to 13 of R76, each with its field code. -/
def stepChecks (r : List Byte) : List (Byte × Bool) :=
  [(2, decide (4095 < fieldAt r 0 2)), (3, decide (1 < fieldAt r 2 1 / 16)),
    (4, decide (fieldAt r 3 1 = 0 ∨ 64 < fieldAt r 3 1)), (5, decide (fieldAt r 4 1 = 0)),
    (6, decide (fieldAt r 5 1 = 0)), (7, decide (fieldAt r 6 1 = 0 ∨ 15 < fieldAt r 6 1)),
    (8, decide (3 < fieldAt r 2 1 % 16)), (9, decide (fieldAt r 2 1 % 16 = 1 ∧ 15 < fieldAt r 7 1)),
    (10, decide (16777215 < fieldAt r 12 4)), (11, decide (fieldAt r 2 1 % 16 = 0 ∧ fieldAt r 8 4 = 0)),
    (12, decide (fieldAt r 2 1 % 16 = 3 ∧ fieldAt r 12 4 = 0))]

theorem failedItem_eq (r : List Byte) : failedItem r = ((stepChecks r).find? (·.2)).map (·.1) := rfl

/-- The condition kind of a code (Table 5-1). -/
def CondKind.ofCode (k : Nat) : CondKind :=
  match k with | 0 => .budget | 1 => .level | 2 => .queueEmpty | _ => .guardOnly

/-- The step that a step record lays out (Table 13-9, R73). -/
def Step.ofRecord (r : List Byte) : Step where
  pt := fieldAt r 0 2
  res := if fieldAt r 2 1 / 16 = 0 then .coarse else .fine
  width := fieldAt r 3 1
  fa := fieldAt r 4 1
  fb := fieldAt r 5 1
  lc := fieldAt r 6 1
  budget := fieldAt r 8 4
  kind := CondKind.ofCode (fieldAt r 2 1 % 16)
  lt := if fieldAt r 2 1 % 16 = 1 then fieldAt r 7 1 else 0
  guard := fieldAt r 12 4

theorem readStep_eq (r : List Byte) : readStep r = firstFailed (stepChecks r) (Step.ofRecord r) := by
  simp only [stepChecks, firstFailed_cons, firstFailed_nil, decide_eq_true_eq]
  rfl

theorem readStep_of_passed {r : List Byte} (h : failedItem r = none) : readStep r = .ok (Step.ofRecord r) := by
  rw [failedItem_eq, Option.map_eq_none_iff] at h
  rw [readStep_eq, firstFailed_of_none _ h]

theorem readStep_of_failed {r : List Byte} {c : Byte} (h : failedItem r = some c) : readStep r = .error c.toNat := by
  rw [failedItem_eq] at h
  obtain ⟨x, hx, rfl⟩ := Option.map_eq_some_iff.mp h
  rw [readStep_eq, firstFailed_of_some _ hx]

theorem CondKind.ofCode_code {k : Nat} (h : k ≤ 3) : (CondKind.ofCode k).code = k := by
  interval_cases k <;> rfl

/-- What the items of R76 ask of a step record that passes them. -/
theorem failedItem_eq_none {r : List Byte} (h : failedItem r = none) :
    fieldAt r 0 2 ≤ 4095 ∧ fieldAt r 2 1 / 16 ≤ 1 ∧ (1 ≤ fieldAt r 3 1 ∧ fieldAt r 3 1 ≤ 64) ∧ 1 ≤ fieldAt r 4 1 ∧
    1 ≤ fieldAt r 5 1 ∧ (1 ≤ fieldAt r 6 1 ∧ fieldAt r 6 1 ≤ 15) ∧ fieldAt r 2 1 % 16 ≤ 3 ∧
    (fieldAt r 2 1 % 16 = 1 → fieldAt r 7 1 ≤ 15) ∧ fieldAt r 12 4 ≤ 16777215 ∧
    (fieldAt r 2 1 % 16 = 0 → fieldAt r 8 4 ≠ 0) ∧ (fieldAt r 2 1 % 16 = 3 → fieldAt r 12 4 ≠ 0) := by
  rw [failedItem_eq, Option.map_eq_none_iff] at h
  simp only [stepChecks, List.find?_eq_none, List.forall_mem_cons, decide_eq_true_eq,
    List.not_mem_nil, false_imp_iff, implies_true, and_true] at h
  omega

theorem Step.ofRecord_stored {r : List Byte} (h : failedItem r = .none) : StepStored r (Step.ofRecord r) := by
  obtain ⟨_, hres, _, _, _, _, hkind, _⟩ := failedItem_eq_none h
  refine ⟨rfl, ?_, CondKind.ofCode_code hkind, rfl, rfl, rfl, rfl, rfl, rfl, rfl⟩
  unfold Step.ofRecord
  rcases Nat.le_one_iff_eq_zero_or_eq_one.mp hres with h0 | h1
  · simp [h0, Resolution.code]
  · simp [h1, Resolution.code]

theorem CondKind.code_ofCode (k : CondKind) : CondKind.ofCode k.code = k := by cases k <;> rfl

theorem CondKind.code_inj {a b : CondKind} (h : a.code = b.code) : a = b := by
  rw [← a.code_ofCode, h, b.code_ofCode]

/-- A stored step is legal (R73, R74). -/
theorem Step.ofRecord_ok {r : List Byte} (h : failedItem r = .none) : (Step.ofRecord r).ok := by
  have hkindOf : ∀ k : CondKind, (Step.ofRecord r).kind = k → fieldAt r 2 1 % 16 = k.code := by
    rintro k rfl
    exact (Step.ofRecord_stored h).kind.symm
  obtain ⟨hpt, _, hw, hfa, hfb, hlc, _, hlt, hguard, hbudget, honly⟩ := failedItem_eq_none h
  have h4 := fieldAt_lt r 4 1
  have h5 := fieldAt_lt r 5 1
  have h8 := fieldAt_lt r 8 4
  refine ⟨hpt, hw.1, hw.2, hfa, by dsimp [Step.ofRecord]; omega, hfb, by dsimp [Step.ofRecord]; omega, hlc.1, hlc.2,
    by dsimp [Step.ofRecord]; omega, ?_, hguard, ?_, fun hk => hbudget (hkindOf _ hk), fun hk => honly (hkindOf _ hk)⟩
  · dsimp only [Step.ofRecord]
    split
    · next h1 => exact hlt h1
    · exact Nat.zero_le _
  · intro hk
    dsimp only [Step.ofRecord]
    rw [if_neg]
    intro h1
    exact hk (CondKind.code_inj ((Step.ofRecord_stored h).kind.trans h1))

/-- The steps read are those that the records lay out, when every record passes. -/
theorem readSteps_ok {i : Nat} {recs : List (List Byte)} (h : ∀ r ∈ recs, failedItem r = none) :
    readSteps i recs = .ok (recs.map Step.ofRecord) := by
  induction recs generalizing i with
  | nil => rfl
  | cons r recs ih =>
    simp only [List.forall_mem_cons] at h
    unfold readSteps
    rw [readStep_of_passed h.1, ih h.2]
    rfl

/-- The lowest step that fails is named, with the code of its first item that fails. -/
theorem readSteps_error {i : Nat} {recs : List (List Byte)} {j : Nat} {c : Byte} (hj : j < recs.length)
    (hc : failedItem recs[j] = some c) (h : ∀ r ∈ recs.take j, failedItem r = none) :
    readSteps i recs = .error (i + j, c.toNat) := by
  induction recs generalizing i j with
  | nil => cases hj
  | cons r recs ih =>
    unfold readSteps
    cases j with
    | zero =>
      rw [readStep_of_failed (r := r) hc]
      rfl
    | succ j =>
      rw [List.take_succ_cons, List.forall_mem_cons] at h
      rw [readStep_of_passed h.1]
      simp only
      rw [ih (by simpa using hj) hc h.2, Nat.add_assoc, Nat.add_comm 1]

/-- What is read of the records is read of each in turn. -/
theorem readSteps_inv {i : Nat} {recs : List (List Byte)} {sts : List Step} (h : readSteps i recs = .ok sts) :
    sts = recs.map Step.ofRecord ∧ ∀ r ∈ recs, failedItem r = none := by
  induction recs generalizing i sts with
  | nil =>
    cases h
    exact ⟨rfl, nofun⟩
  | cons r recs ih =>
    unfold readSteps at h
    cases hr : readStep r with
    | error c => rw [hr] at h; cases h
    | ok st =>
      rw [hr] at h
      simp only at h
      cases hrest : readSteps (i + 1) recs with
      | error e => rw [hrest] at h; cases h
      | ok l =>
        rw [hrest] at h
        cases h
        obtain ⟨rfl, hall⟩ := ih hrest
        rw [readStep_eq] at hr
        obtain ⟨rfl, hnone⟩ := firstFailed_ok hr
        exact ⟨rfl, List.forall_mem_cons.mpr ⟨by rw [failedItem_eq, hnone]; rfl, hall⟩⟩

theorem cutRecords_length (n : Nat) (l : List Byte) : (cutRecords n l).length = n := by
  induction n generalizing l with
  | zero => rfl
  | succ n ih => simp [cutRecords, ih]

/-- A program that WRITE_PROGRAM stores has at most 32 steps, each of them legal (R72, R73). -/
theorem readProgramBody_ok {b : List Byte} {q : ProgNo} {sts : List Step} (h : readProgramBody b = .ok (q, sts)) :
    sts.length ≤ 32 ∧ ∀ st ∈ sts, st.ok := by
  unfold readProgramBody at h
  split at h
  · cases h
  split at h
  · cases h
  next hn =>
    split at h
    · cases h
    · next l hl =>
      rw [Except.ok.injEq, Prod.mk.injEq] at h
      obtain ⟨hmap, hall⟩ := readSteps_inv hl
      rw [← h.2, hmap]
      refine ⟨by simpa [cutRecords_length] using hn, fun st hst => ?_⟩
      obtain ⟨r, hr, rfl⟩ := List.mem_map.mp hst
      exact Step.ofRecord_ok (hall r hr)

/-! ### SET_NOTICE_LEVELS -/

theorem readNoticeLevels_le {b : List Byte} {v : Vector Nat 15} (h : readNoticeLevels b = .ok v) (i : Fin 15) :
    v[i] ≤ 15 := by
  unfold readNoticeLevels at h
  split at h
  · cases h
  · next hnone =>
    rw [Except.ok.injEq] at h
    subst h
    simpa using List.find?_eq_none.mp hnone i.val (by simp)

/-- New levels keep the pending set in order (R175). -/
theorem adjustPending_ok {e : Ern} (v : Vector Nat 15) (h : e.pendingOk) :
    { e with levels := v, pendingSet := adjustPending v e.pendingSet }.pendingOk := by
  obtain ⟨hsorted, hall⟩ := h
  refine ⟨List.pairwise_map.mpr (hsorted.filter _), fun n hn => ?_⟩
  obtain ⟨m, hm, rfl⟩ := List.mem_map.mp hn
  obtain ⟨hmem, hne⟩ := List.mem_filter.mp hm
  obtain ⟨_, _, hlow, hhigh, hscope⟩ := hall m hmem
  exact ⟨rfl, by simpa using hne, hlow, hhigh, hscope⟩

end Sys2Proof.Machine
end

section
/-! SUPPORT. The effects of the requests: mild but for the seven that write settings, and the invariants of settings,
ranges and lists that every one of them keeps. -/

namespace Sys2Proof.Machine

/-! ### Requests that write no setting -/

/-- The requests that write settings (R8, R33, R50, R66, R68, R79, R85, R173). -/
def writesSettings : Instr → Bool
  | .setDevice _ _ => true
  | .setPort _ _ => true
  | .setLevels _ _ => true
  | .setWindow _ _ => true
  | .setDefaultClass _ _ => true
  | .writeProgram _ _ => true
  | .setNoticeLevels _ _ => true
  | _ => false

/-- A relation that holds of a state and itself holds of a request whose body has the wrong length, and otherwise
of the request itself. -/
theorem checked_rel {R : State → State → Prop} (hrefl : ∀ s, R s s) {run : List Byte → State → Effect}
    {kind : Byte} {body : List Byte} (hrun : ∀ s, R s (run body s).1) (s : State) : R s (checked kind body run s).1 := by
  unfold checked
  split
  · exact hrun s
  · exact hrefl s

theorem withPort_rel {R : State → State → Prop} (hrefl : ∀ s, R s s) {f : Port → State → Effect}
    (hf : ∀ p s, R s (f p s).1) (body : List Byte) (s : State) : R s (withPort f body s).1 := by
  unfold withPort
  split
  · exact hrefl s
  · exact hf _ s

section
variable (s : State)

theorem mild_clearSequences : Mild s (clearSequences s) := mild_flc s _ rfl fun _ => Nat.zero_le _

theorem mild_linkStart (b : List Byte) : Mild s (linkStart b s).1 := by
  unfold linkStart
  split
  · exact ((mild_flc s { s.flc with idle := .runOut } rfl id).trans (mild_clearSequences _)).trans (mild_setLink _ _)
  · exact .refl s

theorem linkReply_state (st : Status) : (linkReply st s).1 = s := rfl

theorem mild_stopLink : Mild s (stopLink s) := (mild_setLink s _).trans (mild_fabPump _)

theorem mild_linkStop (b : List Byte) : Mild s (linkStop b s).1 := by
  unfold linkStop
  split
  · rw [linkReply_state]
    exact (mild_teardown .linkStop s).trans (mild_stopLink _)
  · rw [linkReply_state]
    exact (mild_teardown .linkStop s).trans (mild_stopLink _)
  · exact (mild_clearErrors s).trans (mild_stopLink _)
  · exact .refl s
  · exact .refl s

theorem mild_linkReset (b : List Byte) : Mild s (linkReset b s).1 := by
  unfold linkReset
  split
  · exact ((mild_teardown _ s).trans (mild_clearSequences _)).trans (mild_setLink _ _)
  · exact ((mild_teardown _ s).trans (mild_clearSequences _)).trans (mild_setLink _ _)
  · exact (mild_clearSequences s).trans (mild_setLink _ _)
  · exact .refl s
  · exact .refl s

theorem quiet_armOn (p : Port) : Quiet s (armOn p s).1 := by
  unfold armOn
  dsimp only
  split
  · exact quiet_enterPort s p .idle
  · exact .refl s

theorem quiet_disarmOn (p : Port) : Quiet s (disarmOn p s).1 := by
  unfold disarmOn
  dsimp only
  split
  · exact quiet_endEpisode ..
  · refine Quiet.trans ?_ (quiet_clearStandby _ p)
    split
    · exact .refl s
    · exact quiet_enterPort s p .disarmed

theorem quiet_startRelief (b : List Byte) : Quiet s (startRelief b s).1 := by
  refine withPort_rel Quiet.refl (fun p s => ?_) b s
  unfold startReliefChecked
  split
  · exact .refl s
  split
  · exact .refl s
  split
  · exact .refl s
  unfold startReliefOn
  split
  · split
    · exact quiet_modPrc s p _ fun _ => rfl
    · exact .refl s
  · exact quiet_openEpisode ..

theorem quiet_stopReliefOn (p : Port) : Quiet s (stopReliefOn p s).1 := by
  unfold stopReliefOn
  dsimp only
  split
  · exact quiet_endEpisode ..
  · exact quiet_clearStandby s p

theorem quiet_pauseOn (p : Port) : Quiet s (pauseOn p s).1 := by
  unfold pauseOn
  split
  · exact (quiet_enterPort s p .paused).trans (quiet_modPrc _ p _ fun _ => rfl)
  · exact .refl s

theorem quiet_resumeOn (p : Port) : Quiet s (resumeOn p s).1 := by
  unfold resumeOn
  split
  · refine Quiet.trans ?_ (quiet_rerateIfChanged p _ _)
    refine Quiet.trans ?_ (quiet_refill p _)
    exact (quiet_enterPort s p .relief).trans (quiet_modPrc _ p _ fun _ => rfl)
  · exact .refl s

theorem state_getLevels (b : List Byte) : (getLevels b s).1 = s := by
  unfold getLevels
  split <;> rfl

theorem state_getWindow (b : List Byte) : (getWindow b s).1 = s := by
  unfold getWindow
  split
  · rfl
  split <;> rfl

theorem state_readProgram (b : List Byte) : (readProgram b s).1 = s := by
  unfold readProgram
  split <;> rfl

theorem state_readTable (b : List Byte) : (readTable b s).1 = s := by
  unfold readTable
  dsimp only
  split
  · rfl
  split <;> rfl

end

/-- The effect of every command but the requests that write settings is mild. -/
theorem mild_effectOf {c : Instr} (hc : writesSettings c = false) (s : State) : Mild s (effectOf c s).1 := by
  cases c with
  | setDevice _ _ => cases hc
  | setPort _ _ => cases hc
  | setLevels _ _ => cases hc
  | setWindow _ _ => cases hc
  | setDefaultClass _ _ => cases hc
  | writeProgram _ _ => cases hc
  | setNoticeLevels _ _ => cases hc
  | resetDevice t b =>
    exact checked_rel Mild.refl (fun s => mild_clc s { s.clc with resetAsked := true, requests := [] }
      (fun _ => Nat.zero_le _) le_rfl) s
  | linkStart t b => exact checked_rel Mild.refl (fun s => mild_linkStart s b) s
  | linkStop t b => exact checked_rel Mild.refl (fun s => mild_linkStop s b) s
  | linkReset t b => exact checked_rel Mild.refl (fun s => mild_linkReset s b) s
  | getPort t b => exact checked_rel Mild.refl (withPort_rel Mild.refl (fun p s => mild_free s _) b) s
  | arm t b => exact checked_rel Mild.refl (withPort_rel Mild.refl (fun p s => (quiet_armOn s p).mild) b) s
  | disarm t b => exact checked_rel Mild.refl (withPort_rel Mild.refl (fun p s => (quiet_disarmOn s p).mild) b) s
  | startRelief t b => exact checked_rel Mild.refl (fun s => (quiet_startRelief s b).mild) s
  | stopRelief t b => exact checked_rel Mild.refl (withPort_rel Mild.refl (fun p s => (quiet_stopReliefOn s p).mild) b) s
  | pause t b => exact checked_rel Mild.refl (withPort_rel Mild.refl (fun p s => (quiet_pauseOn s p).mild) b) s
  | resume t b => exact checked_rel Mild.refl (withPort_rel Mild.refl (fun p s => (quiet_resumeOn s p).mild) b) s
  | clearHistory t b =>
    exact checked_rel Mild.refl (fun s => mild_ern s { s.ern with history := [] } rfl (fun _ => Nat.zero_le _) id) s
  | readFault t b => exact checked_rel Mild.refl (fun s => mild_ern s { s.ern with fault := none } rfl id id) s
  | identify t b => exact checked_rel Mild.refl (fun s => .refl s) s
  | status t b => exact checked_rel Mild.refl (fun s => .refl s) s
  | time t b => exact checked_rel Mild.refl (fun s => .refl s) s
  | getLevels t b => exact checked_rel Mild.refl (fun s => by rw [state_getLevels]; exact .refl s) s
  | getWindow t b => exact checked_rel Mild.refl (fun s => by rw [state_getWindow]; exact .refl s) s
  | readProgram t b => exact checked_rel Mild.refl (fun s => by rw [state_readProgram]; exact .refl s) s
  | readTable t b => exact checked_rel Mild.refl (fun s => by rw [state_readTable]; exact .refl s) s
  | _ => exact .refl s

/-! ### Requests that write a setting -/

/-- What a request that writes settings does: nothing, or the write `w` of a body that passed its checks. -/
theorem writer_cases {P : State → Prop} {s : State} {kind : Byte} {body : List Byte} {run : List Byte → State → Effect}
    (hnone : P s) (hrun : P (run body s).1) : P (checked kind body run s).1 := by
  unfold checked
  split
  · exact hrun
  · exact hnone

theorem setPort_cases {P : State → Prop} {s : State} (b : List Byte) (hnone : P s)
    (hwrite : ∀ p c, readPortConfig b = .ok c → P (s.modPrc p fun q => { q with config := c })) :
    P (setPort b s).1 := by
  unfold setPort withPort
  split
  · exact hnone
  unfold setPortOn
  split
  · exact hnone
  split
  · exact hnone
  · next c hc => exact hwrite _ c hc

theorem setLevels_cases {P : State → Prop} {s : State} (b : List Byte) (hnone : P s)
    (hwrite : ∀ k : Fin 4, firstDescent (readThresholds b) = none →
      P { s with oev := { s.oev with sets := modAt s.oev.sets k fun _ => readThresholds b } }) :
    P (setLevels b s).1 := by
  unfold setLevels
  split
  · dsimp only
    split
    · exact hnone
    · next hd => exact hwrite _ hd
  · exact hnone

theorem setWindow_cases {P : State → Prop} {s : State} (b : List Byte) (hnone : P s)
    (hwrite : ∀ i w, readWindow b = .ok (i, w) → w.aligned = true → (w.enable = true → s.cmp.overlapped i w = none) →
      P { s with cmp := { s.cmp with windows := modAt s.cmp.windows i fun _ => w } }) :
    P (setWindow b s).1 := by
  unfold setWindow
  split
  · exact hnone
  next i w hw =>
    split
    · exact hnone
    next ha =>
      split
      · exact hnone
      next ho =>
        refine hwrite i w hw (by simpa using ha) fun he => ?_
        rwa [if_pos he] at ho

theorem setDefaultClass_cases {P : State → Prop} {s : State} (b : List Byte) (hnone : P s)
    (hwrite : ∀ c, readDefaultClass b = .ok c → P { s with cmp := { s.cmp with dflt := c, dfltHits := 0 } }) :
    P (setDefaultClass b s).1 := by
  unfold setDefaultClass
  split
  · exact hnone
  · next c hc => exact hwrite c hc

theorem writeProgram_cases {P : State → Prop} {s : State} (b : List Byte) (hnone : P s)
    (hwrite : ∀ q sts, readProgramBody b = .ok (q, sts) → s.inUse q sts.length = none →
      s.pgs.used - (s.pgs.programs[q]).length + sts.length ≤ 256 →
      P { s with pgs := { s.pgs with programs := modAt s.pgs.programs q fun _ => sts } }) :
    P (writeProgram b s).1 := by
  unfold writeProgram
  split
  · exact hnone
  next q sts hq =>
    split
    · exact hnone
    next hu =>
      dsimp only
      split
      · exact hnone
      · next hroom => exact hwrite q sts hq hu (by omega)

theorem setNoticeLevels_cases {P : State → Prop} {s : State} (b : List Byte) (hnone : P s)
    (hwrite : ∀ v, readNoticeLevels b = .ok v → P { s with ern := { s.ern with
      levels := v, pendingSet := adjustPending v s.ern.pendingSet } }) :
    P (setNoticeLevels b s).1 := by
  unfold setNoticeLevels
  split
  · exact hnone
  · next v hv => exact hwrite v hv

/-! ### The invariants of settings, ranges and lists -/

/-- The invariants that an event keeps, whatever it does to the settings. -/
structure Sound (s t : State) : Prop where
  pending : t.pending = s.pending
  ranges : s.rangesOk → t.rangesOk
  settings : s.settingsOk → t.settingsOk
  pendingOk : s.ern.pendingOk → t.ern.pendingOk
  listsOk : s.gpm.listsOk → t.gpm.listsOk
  rtbOk : s.rtb.ok → t.rtb.ok

theorem Sound.refl (s : State) : Sound s s := ⟨rfl, id, id, id, id, id⟩

theorem Sound.trans {s t u : State} (h : Sound s t) (k : Sound t u) : Sound s u :=
  ⟨k.pending.trans h.pending, k.ranges ∘ h.ranges, k.settings ∘ h.settings, k.pendingOk ∘ h.pendingOk,
    k.listsOk ∘ h.listsOk, k.rtbOk ∘ h.rtbOk⟩

/-- The class map is legal as far as its windows agree but for their match counts. -/
theorem Cmp.ok_of_hits {c d : Cmp} (hd : d.dflt = c.dflt)
    (hw : ∀ i : Fin 8, { d.windows[i] with hits := 0 } = { c.windows[i] with hits := 0 }) (h : c.ok) : d.ok := by
  have same : ∀ i : Fin 8, d.windows[i].enable = c.windows[i].enable ∧ d.windows[i].rank = c.windows[i].rank ∧
      d.windows[i].params = c.windows[i].params ∧ d.windows[i].aligned = c.windows[i].aligned ∧
      d.windows[i].covers = c.windows[i].covers := fun i => by
    obtain ⟨he, hb, hs, hr, hp, _⟩ := Window.mk.inj (hw i)
    refine ⟨he, hr, hp, ?_, ?_⟩
    · simp only [Window.aligned, hb, hs]
    · funext n
      simp only [Window.covers, hb, hs]
  obtain ⟨h1, h2, h3⟩ := h
  refine ⟨by rw [hd]; exact h1, fun i => ?_, fun i j hij => ?_⟩
  · obtain ⟨_, _, hp, ha, _⟩ := same i
    rw [ha, hp]
    exact h2 i
  · obtain ⟨hei, hri, _, _, hci⟩ := same i
    obtain ⟨hej, hrj, _, _, hcj⟩ := same j
    rw [hei, hej, hri, hrj, hci, hcj]
    exact h3 i j hij

theorem Mild.sound {s t : State} (h : Mild s t) : Sound s t where
  pending := h.pending
  ranges hs := by
    obtain ⟨h1, h2, h3, h4, h5, h6, h7, h8, h9, h10, h11⟩ := hs
    refine ⟨h.errOk h1, ?_, ?_, ?_, ?_, h.oevOk h6, h.cruOk h7, h.historyOk h8, ?_, h.requests h10, h.replies.trans h11⟩
    · rwa [h.faultLimit]
    · rwa [h.faultLimit]
    · rwa [h.ageLimit]
    · rwa [h.ageLimit]
    · rwa [h.levels]
  settings hs := by
    obtain ⟨h1, h2, h3, h4⟩ := hs
    refine ⟨fun p => by rw [h.config]; exact h1 p, by rwa [h.sets], Cmp.ok_of_hits h.dflt h.windows h3, by rwa [h.pgs]⟩
  pendingOk := h.pendingOk
  listsOk := h.listsOk
  rtbOk := h.rtbOk

/-! ### The writes are sound -/

theorem sound_setDevice (b : List Byte) (s : State) : Sound s (setDevice b s).1 where
  pending := rfl
  ranges hs := by
    obtain ⟨h1, _, _, _, _, h6⟩ := hs
    have hlt := fieldAt_lt b 0 1
    refine ⟨h1, Nat.le_max_left .., ?_, ?_, Nat.min_le_left .., h6⟩
    · change max 1 (fieldAt b 0 1) ≤ 255
      omega
    · change 100 ≤ min 1000000 (max 100 (fieldAt b 1 4))
      omega
  settings := id
  pendingOk := id
  listsOk := id
  rtbOk := id

theorem sound_config (s : State) (p : Port) {c : PortConfig} (hc : c.ok) :
    Sound s (s.modPrc p fun q => { q with config := c }) where
  pending := rfl
  ranges := id
  settings hs := by
    refine ⟨fun q => ?_, hs.2⟩
    rw [State.prcAt_modPrc]
    split
    · exact hc
    · exact hs.1 q
  pendingOk := id
  listsOk := id
  rtbOk := id

theorem sound_levels (s : State) (k : Fin 4) {t : Vector Nat 15} (ht : levelSetOk t) :
    Sound s { s with oev := { s.oev with sets := modAt s.oev.sets k fun _ => t } } where
  pending := rfl
  ranges := id
  settings hs := by
    refine ⟨hs.1, fun i => ?_, hs.2.2⟩
    simp only [modAt_get_at]
    split
    · exact ht
    · exact hs.2.1 i
  pendingOk := id
  listsOk := id
  rtbOk := id

/-- A window that overlaps no other enabled window of its rank shares no service number with one. -/
theorem Cmp.not_shared_of_no_overlap {c : Cmp} {i : Fin 8} {w : Window} (h : c.overlapped i w = none) {j : Fin 8}
    (hj : j ≠ i) (he : c.windows[j].enable = true) (hr : c.windows[j].rank = w.rank) (n : BitVec 16) :
    ¬(c.windows[j].covers n = true ∧ w.covers n = true) := by
  rintro ⟨hcj, hcw⟩
  refine List.find?_eq_none.mp h j (List.mem_finRange j) ?_
  simp only [Bool.and_eq_true, bne_iff_ne, beq_iff_eq]
  exact ⟨⟨⟨hj, he⟩, hr⟩, overlaps_of_covers hcj hcw⟩

theorem Cmp.ok_window {c : Cmp} (i : Fin 8) {w : Window} (ha : w.aligned = true) (hcap : capOk w.params.cap)
    (ho : w.enable = true → c.overlapped i w = none) (h : c.ok) :
    { c with windows := modAt c.windows i fun _ => w }.ok := by
  obtain ⟨h1, h2, h3⟩ := h
  refine ⟨h1, fun j => ?_, fun j k hjk => ?_⟩
  · simp only [modAt_get_at]
    split
    · exact ⟨ha, hcap⟩
    · exact h2 j
  · simp only [modAt_get_at]
    split
    · next hj =>
      rw [if_neg (fun hk => hjk (hj.trans hk.symm))]
      intro hew hek hrank n hn
      exact Cmp.not_shared_of_no_overlap (ho hew) (fun hk => hjk (hj.trans hk.symm)) hek hrank.symm n hn.symm
    · split
      · next hj hk =>
        intro hej hew hrank n
        exact Cmp.not_shared_of_no_overlap (ho hew) hj hej hrank n
      · exact h3 j k hjk

theorem sound_cmp (s : State) (c : Cmp) (hc : s.cmp.ok → c.ok) : Sound s { s with cmp := c } where
  pending := rfl
  ranges := id
  settings hs := ⟨hs.1, hs.2.1, hc hs.2.2.1, hs.2.2.2⟩
  pendingOk := id
  listsOk := id
  rtbOk := id

/-- The pool steps in use after a program is replaced. -/
theorem Pgs.used_modAt (g : Pgs) (q : ProgNo) (sts : List Step) :
    Pgs.used { g with programs := modAt g.programs q fun _ => sts } =
      g.used - (g.programs[q]).length + sts.length := by
  have hsplit : ∀ (l : List (List Step)) (n : Nat) (hn : n < l.length),
      ((l.set n sts).map List.length).sum = (l.map List.length).sum - l[n].length + sts.length := by
    intro l
    induction l with
    | nil => intro n hn; cases hn
    | cons a l ih =>
      intro n hn
      cases n with
      | zero => simp; omega
      | succ n =>
        have hn : n < l.length := by simpa using hn
        have hmem : l[n].length ≤ (l.map List.length).sum :=
          List.le_sum_of_mem (List.mem_map_of_mem (List.getElem_mem hn))
        simp only [List.set_cons_succ, List.map_cons, List.sum_cons, ih n hn, List.getElem_cons_succ]
        omega
  have htotal := hsplit g.programs.toList q.val (by simp)
  unfold Pgs.used modAt
  rw [Vector.toList_set, htotal]
  rfl

theorem Pgs.ok_program {g : Pgs} (q : ProgNo) {sts : List Step} (hlen : sts.length ≤ 32) (hall : ∀ st ∈ sts, st.ok)
    (hroom : g.used - (g.programs[q]).length + sts.length ≤ 256) (h : g.ok) :
    Pgs.ok { g with programs := modAt g.programs q fun _ => sts } := by
  refine ⟨(g.used_modAt q sts).trans_le hroom, fun r => ?_⟩
  simp only [modAt_get_at]
  split
  · exact ⟨hlen, hall⟩
  · exact h.2 r

theorem sound_pgs (s : State) (g : Pgs) (hg : s.pgs.ok → g.ok) : Sound s { s with pgs := g } where
  pending := rfl
  ranges := id
  settings hs := ⟨hs.1, hs.2.1, hs.2.2.1, hg hs.2.2.2⟩
  pendingOk := id
  listsOk := id
  rtbOk := id

theorem sound_noticeLevels (s : State) {v : Vector Nat 15} (hv : ∀ i : Fin 15, v[i] ≤ 15) :
    Sound s { s with ern := { s.ern with levels := v, pendingSet := adjustPending v s.ern.pendingSet } } where
  pending := rfl
  ranges hs := by
    obtain ⟨h1, h2, h3, h4, h5, h6, h7, h8, _, h10⟩ := hs
    exact ⟨h1, h2, h3, h4, h5, h6, h7, h8, hv, h10⟩
  settings := id
  pendingOk := adjustPending_ok v
  listsOk := id
  rtbOk := id

/-- The effect of every command is sound. -/
theorem sound_effectOf (c : Instr) (s : State) : Sound s (effectOf c s).1 := by
  by_cases hc : writesSettings c = false
  · exact (mild_effectOf hc s).sound
  cases c with
  | setDevice t b => exact checked_rel Sound.refl (sound_setDevice b) s
  | setPort t b =>
    exact checked_rel Sound.refl (fun s => setPort_cases b (.refl s) fun p _ hc => sound_config s p (readPortConfig_ok hc)) s
  | setLevels t b =>
    exact checked_rel Sound.refl (fun s => setLevels_cases b (.refl s) fun k hd => sound_levels s k (readThresholds_ok hd)) s
  | setWindow t b =>
    exact checked_rel Sound.refl (fun s => setWindow_cases b (.refl s) fun i _ hw ha ho =>
      sound_cmp s _ (Cmp.ok_window i ha (readWindow_cap hw) ho)) s
  | setDefaultClass t b =>
    exact checked_rel Sound.refl (fun s => setDefaultClass_cases b (.refl s) fun c hc =>
      sound_cmp s _ fun h => ⟨readDefaultClass_cap hc, h.2⟩) s
  | writeProgram t b =>
    exact checked_rel Sound.refl (fun s => writeProgram_cases b (.refl s) fun q sts hq _ hroom =>
      sound_pgs s _ (Pgs.ok_program q (readProgramBody_ok hq).1 (readProgramBody_ok hq).2 hroom)) s
  | setNoticeLevels t b =>
    exact checked_rel Sound.refl (fun s => setNoticeLevels_cases b (.refl s) fun v hv =>
      sound_noticeLevels s (readNoticeLevels_le hv)) s
  | _ => exact absurd rfl hc

/-! ### Every step of a command -/

/-- The reply queue has grown no longer. -/
def KeepsReplies (s t : State) : Prop := t.clc.replies.length ≤ s.clc.replies.length

/-- No request takes a reply from the reply queue or adds one to it by itself. -/
theorem effectOf_replies (c : Instr) (s : State) : KeepsReplies s (effectOf c s).1 := by
  by_cases hc : writesSettings c = false
  · exact (mild_effectOf hc s).replies
  have hself : ∀ u : State, KeepsReplies u u := fun _ => le_rfl
  cases c with
  | setDevice t b => exact checked_rel (R := KeepsReplies) hself (fun s => hself s) s
  | setPort t b => exact checked_rel (R := KeepsReplies) hself (fun s => setPort_cases b (hself s) fun _ _ _ => hself s) s
  | setLevels t b => exact checked_rel (R := KeepsReplies) hself (fun s => setLevels_cases b (hself s) fun _ _ => hself s) s
  | setWindow t b => exact checked_rel (R := KeepsReplies) hself (fun s => setWindow_cases b (hself s) fun _ _ _ _ _ => hself s) s
  | setDefaultClass t b => exact checked_rel (R := KeepsReplies) hself (fun s => setDefaultClass_cases b (hself s) fun _ _ => hself s) s
  | writeProgram t b => exact checked_rel (R := KeepsReplies) hself (fun s => writeProgram_cases b (hself s) fun _ _ _ _ _ => hself s) s
  | setNoticeLevels t b => exact checked_rel (R := KeepsReplies) hself (fun s => setNoticeLevels_cases b (hself s) fun _ _ => hself s) s
  | _ => exact absurd rfl hc

theorem sound_putReply (kind tag : Byte) (body : List Byte) {s : State} (h : s.clc.replies.length < 4) :
    Sound s (putReply kind tag body s) where
  pending := rfl
  ranges hs := by
    obtain ⟨h1, h2, h3, h4, h5, h6, h7, h8, h9, h10, _⟩ := hs
    refine ⟨h1, h2, h3, h4, h5, h6, h7, h8, h9, h10, ?_⟩
    simpa [putReply, State.modClcCtr] using h
  settings := id
  pendingOk := id
  listsOk := id
  rtbOk := id

theorem State.canTake_iff {s : State} : s.canTake = true ↔ s.clc.replies.length < 4 ∧ s.clc.resetAsked = false := by
  simp [State.canTake]

/-- The taking of a request is sound. -/
theorem sound_answer (c : Instr) (r : CtlFrame) {s : State} (h : s.canTake = true) :
    Sound s (answer r (effectOf c) (dropHead s)) := by
  refine ((mild_dropHead s).sound.trans (sound_effectOf c _)).trans (sound_putReply _ _ _ ?_)
  exact (effectOf_replies c (dropHead s)).trans_lt (State.canTake_iff.mp h).1

/-- The steps of a command that are no request's taking are mild. -/
theorem act_cases {c : Instr} {s t : State} (h : Act c s t) :
    Mild s t ∨ ∃ r, s.canTake = true ∧ t = answer r (effectOf c) (dropHead s) := by
  cases h with
  | settle => exact .inl (mild_settle s)
  | symbol _ x => exact .inl (mild_takeSymbol s x)
  | joinRecords _ r => exact .inl (mild_flc s _ rfl id)
  | leaveRecords _ r => exact .inl (mild_flc s _ rfl id)
  | report p seq cells d => exact .inl (quiet_takeReport p seq cells d s).mild
  | sighting h p ing srv => exact .inl (mild_takeSighting h p ing srv s)
  | flowEnd h p g left => exact .inl (mild_takeFlowEnd h p g _ s)
  | gateSpent g ep echo h => exact .inl (quiet_takeGateSpent g ep echo h s).mild
  | holdPressure g ep h held => exact .inl (quiet_takeHoldPressure g ep h held s).mild
  | debounce p => exact .inl (quiet_debounceEvent p s).mild
  | stale p => exact .inl (quiet_staleEvent p s).mild
  | guard p => exact .inl (quiet_guardEvent p s).mild
  | drain p => exact .inl (quiet_drainEvent p s).mild
  | cooldown p => exact .inl (quiet_cooldownEvent p s).mild
  | age i => exact .inl (mild_ageOut i s)
  | idle => exact .inl (mild_idleEvent s)
  | laneFree => exact .inl (mild_flc s _ rfl id)
  | byte b => exact .inl (mild_byteEvent b s)
  | framing => exact .inl (mild_framingEvent s)
  | gap => exact .inl (mild_gapEvent s)
  | lineFree => exact .inl (mild_clc s _ id le_rfl)
  | queue _ r => exact .inl (mild_queueRequest r s)
  | request _ r _ h => exact .inr ⟨r, h, rfl⟩

/-- Every run of a command's steps is sound. -/
theorem Acts.sound {c : Instr} {s t : State} (h : Acts c s t) : Sound s t :=
  h.rel Sound.refl Sound.trans fun hact => by
    rcases act_cases hact with hmild | ⟨r, htake, rfl⟩
    · exact hmild.sound
    · exact sound_answer _ r htake

/-! ### Every step of the part -/

/-- What a step of the part answers: a command's run, or a microsecond. -/
theorem step_cases {s t : State} (h : step s = .next t) :
    (∃ c rest, s.pending = c :: rest ∧ Ran c { s with pending := rest } t) ∨ (∃ c, s.pending = [] ∧ Ran c s t) ∨
      t = tick s := by
  unfold step at h
  split at h
  · next c rest hp => exact .inl ⟨c, rest, hp, ran_of_exec h⟩
  · next hp =>
    split at h
    · next c _ => exact .inr (.inl ⟨c, hp, ran_of_exec h⟩)
    · exact .inr (.inr (Host.Outcome.next.inj h).symm)

/-- An invariant of the part: it reads neither the queue of commands nor the time and the phase of a reset, the reset
state has it, and the steps of every command keep it. -/
theorem step_keeps {I : State → Prop} (hpending : ∀ s l, I s → I { s with pending := l })
    (htime : ∀ s ph tmb, I s → I { s with phase := ph, tmb := tmb }) (hreset : ∀ ph s, I (deviceReset ph s))
    (hacts : ∀ {c s t}, s.phase = .running → Acts c s t → I s → I t) {s t : State} (hs : I s)
    (h : step s = .next t) : I t := by
  have hran : ∀ {c u}, I u → Ran c u t → I t := by
    intro c u hu hr
    cases hr with
    | nothing => exact hu
    | acts hrun h => exact hacts hrun h hu
    | reset ph _ => exact hreset ph u
    | release _ => exact htime u _ u.tmb hu
    | complete _ => exact htime u _ _ hu
  rcases step_cases h with ⟨c, rest, _, hr⟩ | ⟨c, _, hr⟩ | rfl
  · exact hran (hpending s rest hs) hr
  · exact hran hs hr
  · unfold tick
    split
    · exact htime s s.phase _ hs
    · exact hs

end Sys2Proof.Machine
end

section
/-! SUPPORT. The reset state: its values (R19, R37, R59, R70, R82, R108, R139, R155, R156, R180, R193) and the invariants
it meets. -/

namespace Sys2Proof.Machine

section
variable (p : Port)

@[simp] theorem reset_oevAt : State.reset.oevAt p = ⟨false, 0, 0, 0, 0, 0, 0, 0⟩ := by
  simp [State.oevAt, State.reset, Oev.reset, OevPort.reset]

@[simp] theorem reset_prcAt : State.reset.prcAt p = PrcPort.reset := by
  simp [State.prcAt, State.reset, Prc.reset]

@[simp] theorem reset_aduAt : State.reset.aduAt p = ⟨[], []⟩ := by
  simp [State.aduAt, State.reset, Adu.reset]

@[simp] theorem reset_cruAt : State.reset.cruAt p = ⟨0, 0⟩ := by
  simp [State.cruAt, State.reset, Cru.reset]

@[simp] theorem reset_arrival : State.reset.rtb.arrival[p] = [] := by
  simp [State.reset, Rtb.reset]

end

@[simp] theorem reset_gate (g : GateNo) : State.reset.gpm.gate g = ⟨0, none, .free, 0, .coarse, 0, 0⟩ := by
  simp [Gpm.gate, State.reset, Gpm.reset, Gate.reset]

@[simp] theorem reset_entry? (i : Slot) : State.reset.rtb.entry? i = none := rfl

@[simp] theorem reset_window (i : Fin 8) : State.reset.cmp.windows[i] = Window.reset := by
  simp [State.reset, Cmp.reset]

theorem reset_threshold (k : Fin 4) (i : Fin 15) : State.reset.oev.sets[k][i] = 4096 * (i.val + 1) := by
  have hset : State.reset.oev.sets[k] = Oev.resetSet := by simp [State.reset, Oev.reset]
  rw [hset]
  revert i
  decide

theorem reset_program (q : ProgNo) : State.reset.pgs.programs[q] =
    if q = 0 then [Step.factory0, Step.factory1] else [] := by
  revert q
  decide

/-! ### The invariants at reset -/

theorem reset_rangesOk : State.reset.rangesOk := by
  refine ⟨by decide, by decide, by decide, by decide, by decide, fun p => ?_, fun p => ?_, by decide, by decide,
    by decide, by decide⟩
  · rw [reset_oevAt]
    decide
  · rw [reset_cruAt]
    decide

theorem reset_cap : capOk 65536 := ⟨by decide, by decide, by decide⟩

theorem reset_settingsOk : State.reset.settingsOk := by
  refine ⟨fun p => ?_, fun k => ⟨fun i => ?_, fun i j hij => ?_⟩, ⟨reset_cap, fun i => ?_, fun i j _ hi => ?_⟩, ?_, fun q => ?_⟩
  · rw [reset_prcAt]
    unfold PortConfig.ok
    decide
  · rw [reset_threshold]
    omega
  · rw [reset_threshold, reset_threshold]
    have : i.val ≤ j.val := hij
    omega
  · rw [reset_window]
    exact ⟨by decide, reset_cap⟩
  · rw [reset_window] at hi
    cases hi
  · decide
  · rw [reset_program]
    split
    · refine ⟨by decide, fun st hst => ?_⟩
      rcases List.mem_pair.mp hst with rfl | rfl <;> unfold Step.ok <;> decide
    · exact ⟨Nat.zero_le _, nofun⟩

theorem reset_timersOk : State.reset.prc.timersOk := by
  intro p
  have h := reset_prcAt p
  unfold State.prcAt at h
  rw [h]
  refine ⟨nofun, by decide, nofun, ?_, ?_, by decide, by decide, nofun, nofun⟩
  · rintro ⟨_, _, hf⟩
    cases hf
  · rintro ⟨_, _, hr⟩
    cases hr

theorem reset_pendingOk : State.reset.ern.pendingOk := ⟨List.Pairwise.nil, nofun⟩

theorem reset_rtbOk : State.reset.rtb.ok := by
  refine ⟨List.Pairwise.nil, fun p => ?_⟩
  rw [reset_arrival]
  exact ⟨List.nodup_nil, fun i => by simp⟩

theorem reset_free : State.reset.gpm.free = List.finRange 1024 := by
  simp only [State.reset, Gpm.reset]

theorem reset_listsOk : State.reset.gpm.listsOk := by
  refine ⟨List.nodup_nil, ?_, fun g => ?_⟩
  · rw [reset_free]
    exact List.nodup_finRange _
  · rw [reset_free, reset_gate]
    exact iff_of_true (List.mem_finRange g) rfl

theorem reset_settled : State.reset.settled := ⟨fun _ h => absurd rfl h, fun _ => ⟨rfl, rfl⟩⟩

theorem reset_booksOk : State.reset.booksOk where
  table := reset_rtbOk
  lists := reset_listsOk
  entries i e h := by cases h
  held i e r h := by cases h
  bound g k h := by rw [reset_gate] at h; cases h
  unbound g _ := by rw [reset_gate]; exact ⟨rfl, rfl, rfl, rfl⟩
  waiting p := by rw [reset_aduAt]; exact ⟨List.nodup_nil, fun i => by simp⟩
  admitted p := by rw [reset_aduAt]; exact ⟨List.nodup_nil, fun i => by simp⟩

theorem inBandOrder_of_no_arrivals {s : State} {p : Port} (h : s.rtb.arrival[p] = []) (st : EntryState) :
    s.inBandOrder p st = [] := by
  unfold State.inBandOrder
  rw [h]
  simp

theorem queuesOk_of_empty {s : State} (harr : ∀ p : Port, s.rtb.arrival[p] = []) (hadu : ∀ p, s.aduAt p = ⟨[], []⟩) :
    s.queuesOk where
  order p := by rw [hadu, inBandOrder_of_no_arrivals (harr p)]
  waiting p := by rw [hadu]; exact Nat.zero_le _
  admitted p := by simp [State.admittedCount, State.overdraftCount, hadu]
  filled p _ := .inr (by rw [hadu])

theorem reset_queuesOk : State.reset.queuesOk := queuesOk_of_empty reset_arrival reset_aduAt

end Sys2Proof.Machine

namespace Sys2Proof.Proofs

open Sys2Proof Sys2Proof.Machine

/-- Settles O4, by the value of each block at reset. -/
theorem resetValues : Obligations.ResetValues := by
  refine ⟨⟨rfl, rfl, rfl⟩, ⟨rfl, rfl, rfl, rfl, rfl, rfl, rfl, rfl, rfl, rfl⟩, ⟨reset_threshold, reset_oevAt⟩,
    ⟨reset_entry?, reset_arrival, rfl, rfl, fun _ => rfl⟩, ⟨reset_window, rfl, rfl⟩,
    ⟨reset_program 0, fun q hq => (reset_program q).trans (if_neg hq), by decide⟩, ⟨fun p => ?_, rfl⟩,
    ⟨reset_aduAt, rfl, rfl, rfl⟩, ⟨reset_cruAt, rfl⟩, ⟨reset_gate, reset_free, rfl, rfl, rfl, rfl, rfl, rfl⟩,
    ⟨rfl, rfl, rfl, by decide, rfl, rfl, rfl, rfl, rfl⟩, ⟨rfl, rfl, rfl, rfl, rfl, rfl⟩⟩
  rw [reset_prcAt]
  exact ⟨rfl, rfl, rfl, rfl, rfl, rfl, rfl, rfl, rfl, rfl⟩

/-- Settles O7, invariant by invariant. -/
theorem resetMeetsInvariants : Obligations.ResetMeetsInvariants :=
  ⟨reset_settled, reset_rangesOk, reset_settingsOk, reset_timersOk, reset_pendingOk, reset_rtbOk, reset_listsOk,
    reset_booksOk, reset_queuesOk⟩

end Sys2Proof.Proofs
end

section
/-! SUPPORT. What every step keeps: ranges, lists, settings, the pending set and free transmitters with nothing to
send; who may change a setting; and the commands of the reset. -/

namespace Sys2Proof.Machine

/-! ### After settling, no free transmitter has something to send -/

theorem fabPump_laneSettled (s : State) : (fabPump s).laneSettled := by
  intro htx hlink
  unfold fabPump at htx hlink ⊢
  split at htx
  · next h =>
    rw [if_pos h] at hlink
    exact absurd h (by simp [htx, hlink])
  split at htx
  · cases htx
  split at htx
  · cases htx
  split at htx
  · next h1 h2 h3 h4 =>
    rw [if_neg h1, if_neg h2, if_neg h3, if_pos h4] at hlink
    exact absurd rfl hlink
  · next h1 h2 h3 h4 =>
    rw [if_neg h1, if_neg h2, if_neg h3, if_neg h4]
    exact ⟨not_not.mp h2, h3, h4⟩

theorem selectNotice_eq_none {l : List Notice} : selectNotice l = none ↔ l = [] := by
  cases l with
  | nil => simp [selectNotice]
  | cons n l =>
    unfold selectNotice
    split
    · simp
    · split <;> simp

theorem ctlPump_lineSettled (s : State) : (ctlPump s).lineSettled := by
  intro htx
  unfold ctlPump at htx ⊢
  split at htx
  · next h => simp [htx] at h
  split at htx
  · cases htx
  split at htx
  · next h1 _ h2 _ h3 =>
    rw [if_neg h1]
    simp only [h2]
    exact ⟨trivial, selectNotice_eq_none.mp h3⟩
  · cases htx

theorem ctlPump_laneSettled {s : State} (h : s.laneSettled) : (ctlPump s).laneSettled := by
  obtain ⟨_, _, hflc, _, _, _, _, _, _, _, hgpm, _⟩ := ctlPump_frame s
  unfold State.laneSettled
  rw [hflc, hgpm]
  exact h

theorem settle_settled (s : State) : (settle s).settled :=
  ⟨ctlPump_laneSettled (fabPump_laneSettled s), ctlPump_lineSettled _⟩

theorem onEvent_settled {f : State → State} {s t : State} (hs : s.settled) (h : onEvent f s = .next t) : t.settled := by
  unfold onEvent at h
  split at h <;> cases h
  · exact settle_settled _
  · exact hs

theorem foldl_settled {syms : List LaneSym} {s : State} (hs : s.settled) :
    (syms.foldl (fun s x => settle (takeSymbol s x)) s).settled := by
  induction syms generalizing s with
  | nil => exact hs
  | cons x l ih => exact ih (settle_settled _)

/-- A command leaves no free transmitter with something to send. -/
theorem exec_settled {c : Instr} {s t : State} (hs : s.settled) (h : exec c s = .next t) : t.settled := by
  cases c with
  | fabricFrameEvent syms =>
    have hexec : execFabricFrameEvent syms s = .next t := h
    unfold execFabricFrameEvent at hexec
    split at hexec <;> cases hexec
    · exact foldl_settled hs
    · exact hs
  | resetNAssert => cases h; exact reset_settled
  | resetNRelease =>
    cases h
    split <;> exact hs
  | deviceResetComplete =>
    cases h
    split <;> exact hs
  | idleIntervalExpiry => exact onEvent_settled (f := idleEvent) hs h
  | fabricTransmitComplete => exact onEvent_settled (f := laneFree) hs h
  | ctlByteReceived b => exact onEvent_settled (f := byteEvent b) hs h
  | ctlFramingError => exact onEvent_settled (f := framingEvent) hs h
  | ctlTransmitComplete => exact onEvent_settled (f := lineFreeEvent) hs h
  | unknownRequest kind tag body => exact onEvent_settled hs (show execUnknownRequest kind tag body s = .next t from h)
  | _ => exact onEvent_settled hs h

/-! ### Who writes a setting -/

/-- The settings stay, but for those that the command writes. -/
def SettingsBut (c : Instr) (s t : State) : Prop :=
  ((∀ tag b, c ≠ .writeProgram tag b) → t.pgs = s.pgs) ∧
  ((∀ tag b, c ≠ .setWindow tag b) →
    ∀ i : Fin 8, { t.cmp.windows[i] with hits := 0 } = { s.cmp.windows[i] with hits := 0 }) ∧
  ((∀ tag b, c ≠ .setDefaultClass tag b) → t.cmp.dflt = s.cmp.dflt) ∧
  ((∀ tag b, c ≠ .setLevels tag b) → t.oev.sets = s.oev.sets) ∧
  ((∀ tag b, c ≠ .setPort tag b) → ∀ p, (t.prcAt p).config = (s.prcAt p).config) ∧
  ((∀ tag b, c ≠ .setDevice tag b) → t.rtb.ageLimit = s.rtb.ageLimit ∧ t.flc.faultLimit = s.flc.faultLimit) ∧
  ((∀ tag b, c ≠ .setNoticeLevels tag b) → t.ern.levels = s.ern.levels)

theorem Mild.settingsBut {s t : State} (h : Mild s t) (c : Instr) : SettingsBut c s t :=
  ⟨fun _ => h.pgs, fun _ => h.windows, fun _ => h.dflt, fun _ => h.sets, fun _ => h.config,
    fun _ => ⟨h.ageLimit, h.faultLimit⟩, fun _ => h.levels⟩

theorem SettingsBut.refl (c : Instr) (s : State) : SettingsBut c s s := (Mild.refl s).settingsBut c

theorem SettingsBut.trans {c : Instr} {s t u : State} (h : SettingsBut c s t) (k : SettingsBut c t u) :
    SettingsBut c s u := by
  obtain ⟨h1, h2, h3, h4, h5, h6, h7⟩ := h
  obtain ⟨k1, k2, k3, k4, k5, k6, k7⟩ := k
  exact ⟨fun n => (k1 n).trans (h1 n), fun n i => (k2 n i).trans (h2 n i), fun n => (k3 n).trans (h3 n),
    fun n => (k4 n).trans (h4 n), fun n p => (k5 n p).trans (h5 n p),
    fun n => ⟨(k6 n).1.trans (h6 n).1, (k6 n).2.trans (h6 n).2⟩, fun n => (k7 n).trans (h7 n)⟩

/-- A request changes only the settings that it writes. -/
theorem effectOf_settingsBut (c : Instr) (s : State) : SettingsBut c s (effectOf c s).1 := by
  by_cases hc : writesSettings c = false
  · exact (mild_effectOf hc s).settingsBut c
  have hrefl := SettingsBut.refl c
  cases c with
  | setDevice t b =>
    exact checked_rel hrefl (fun s => ⟨fun _ => rfl, fun _ _ => rfl, fun _ => rfl, fun _ => rfl, fun _ _ => rfl,
      fun h => absurd rfl (h t b), fun _ => rfl⟩) s
  | setPort t b =>
    exact checked_rel hrefl (fun s => setPort_cases b (hrefl s) fun _ _ _ => ⟨fun _ => rfl, fun _ _ => rfl, fun _ => rfl,
      fun _ => rfl, fun h => absurd rfl (h t b), fun _ => ⟨rfl, rfl⟩, fun _ => rfl⟩) s
  | setLevels t b =>
    exact checked_rel hrefl (fun s => setLevels_cases b (hrefl s) fun _ _ => ⟨fun _ => rfl, fun _ _ => rfl, fun _ => rfl,
      fun h => absurd rfl (h t b), fun _ _ => rfl, fun _ => ⟨rfl, rfl⟩, fun _ => rfl⟩) s
  | setWindow t b =>
    exact checked_rel hrefl (fun s => setWindow_cases b (hrefl s) fun _ _ _ _ _ => ⟨fun _ => rfl,
      fun h => absurd rfl (h t b), fun _ => rfl, fun _ => rfl, fun _ _ => rfl, fun _ => ⟨rfl, rfl⟩, fun _ => rfl⟩) s
  | setDefaultClass t b =>
    exact checked_rel hrefl (fun s => setDefaultClass_cases b (hrefl s) fun _ _ => ⟨fun _ => rfl, fun _ _ => rfl,
      fun h => absurd rfl (h t b), fun _ => rfl, fun _ _ => rfl, fun _ => ⟨rfl, rfl⟩, fun _ => rfl⟩) s
  | writeProgram t b =>
    exact checked_rel hrefl (fun s => writeProgram_cases b (hrefl s) fun _ _ _ _ _ => ⟨fun h => absurd rfl (h t b),
      fun _ _ => rfl, fun _ => rfl, fun _ => rfl, fun _ _ => rfl, fun _ => ⟨rfl, rfl⟩, fun _ => rfl⟩) s
  | setNoticeLevels t b =>
    exact checked_rel hrefl (fun s => setNoticeLevels_cases b (hrefl s) fun _ _ => ⟨fun _ => rfl, fun _ _ => rfl,
      fun _ => rfl, fun _ => rfl, fun _ _ => rfl, fun _ => ⟨rfl, rfl⟩, fun h => absurd rfl (h t b)⟩) s
  | _ => exact absurd rfl hc

theorem Acts.settingsBut {c : Instr} {s t : State} (h : Acts c s t) : SettingsBut c s t :=
  h.rel (SettingsBut.refl c) SettingsBut.trans fun {s u} hact => by
    rcases act_cases hact with hmild | ⟨r, _, rfl⟩
    · exact hmild.settingsBut c
    · exact ((mild_dropHead s).settingsBut c).trans (effectOf_settingsBut c (dropHead s))

end Sys2Proof.Machine

namespace Sys2Proof.Proofs

open Sys2Proof Sys2Proof.Machine

/-- Settles O9: every step of a command is sound, and the reset state is in range. -/
theorem rangesKept : Obligations.RangesKept := fun _ _ hs h =>
  step_keeps (I := State.rangesOk) (fun _ _ h => h) (fun _ _ _ h => h) (fun _ _ => reset_rangesOk)
    (fun _ h => h.sound.ranges) hs h

/-- Settles O10, for the lists of gates and for the Responder Table. -/
theorem listsKept : Obligations.ListsKept := fun _ _ h =>
  ⟨fun hs => step_keeps (I := fun s => s.gpm.listsOk) (fun _ _ h => h) (fun _ _ _ h => h) (fun _ _ => reset_listsOk)
    (fun _ h => h.sound.listsOk) hs h,
  fun hs => step_keeps (I := fun s => s.rtb.ok) (fun _ _ h => h) (fun _ _ _ h => h) (fun _ _ => reset_rtbOk)
    (fun _ h => h.sound.rtbOk) hs h⟩

/-- Settles O12: a request that writes a setting has checked it, and no other event writes one. -/
theorem settingsKept : Obligations.SettingsKept := fun _ _ hs h =>
  step_keeps (I := State.settingsOk) (fun _ _ h => h) (fun _ _ _ h => h) (fun _ _ => reset_settingsOk)
    (fun _ h => h.sound.settings) hs h

/-- Settles O13. -/
theorem pendingSetKept : Obligations.PendingSetKept := fun _ _ hs h =>
  step_keeps (I := fun s => s.ern.pendingOk) (fun _ _ h => h) (fun _ _ _ h => h) (fun _ _ => reset_pendingOk)
    (fun _ h => h.sound.pendingOk) hs h

/-- Settles O15, by what each step of a command does to the settings. -/
theorem settingsHaveOneWriter : Obligations.SettingsHaveOneWriter := by
  intro c s t h ht hs
  cases ran_of_exec h with
  | nothing => exact SettingsBut.refl c s
  | acts _ h => exact h.settingsBut
  | reset ph hph => exact absurd ht hph
  | release hheld => rw [hs] at hheld; cases hheld
  | complete hcomp => rw [hs] at hcomp; cases hcomp

/-- Settles O8: what follows every event leaves nothing to send. -/
theorem settledKept : Obligations.SettledKept := by
  intro s t hs h
  unfold step at h
  split at h
  · next rest _ => exact exec_settled (s := { s with pending := rest }) hs h
  split at h
  · exact exec_settled hs h
  · cases h
    unfold tick
    split <;> exact hs

/-- Settles O1, by the definition of a step on a queue with a command. -/
theorem frontCommandRuns : Obligations.FrontCommandRuns := fun _ _ _ => rfl

/-- Settles O2: the three things that a step on an empty queue can be. -/
theorem emptyQueueStep : Obligations.EmptyQueueStep := by
  intro s hp
  have hown (c : Instr) (hc : s.ownEvent = some c) : step s = exec c s := by
    simp only [step, hp, hc]
  have htick (hn : s.ownEvent = none) : step s = .next (tick s) := by
    simp only [step, hp, hn]
  refine ⟨hown, fun hrun hn => ⟨tick s, htick hn, ?_⟩, fun hrun => ?_⟩
  · unfold tick
    rw [if_pos hrun]
    exact ⟨rfl, BitVec.ofNat_add .., rfl⟩
  · rw [htick (if_pos hrun)]
    unfold tick
    rw [if_neg hrun]

/-- Settles O3: a command's steps and a device reset leave the queue of commands alone. -/
theorem everyCommandCompletes : Obligations.EveryCommandCompletes := by
  intro c s
  obtain ⟨t, ht, hr⟩ := exec_ran c s
  refine ⟨t, ht, ?_⟩
  cases hr with
  | acts _ h => exact h.sound.pending
  | _ => rfl

/-- Settles O5: while a reset is in progress only its own commands act. -/
theorem resetHoldsThePart : Obligations.ResetHoldsThePart := by
  refine ⟨fun s => ⟨rfl, ?_, rfl⟩, fun c s hs hc => ?_⟩
  · unfold exec execResetNRelease
    dsimp only
    split <;> rfl
  · cases c with
    | fabricFrameEvent syms => exact if_neg hs
    | resetNAssert => simp at hc
    | resetNRelease => simp at hc
    | deviceResetComplete => simp at hc
    | _ => exact if_neg hs

/-- Settles O6: the reply, the closed queue, and the reset at the end of the last reply. -/
theorem resetDeviceAfterItsReply : Obligations.ResetDeviceAfterItsReply := by
  refine ⟨fun s tag ht hlane => ?_, fun s h => by simp [State.canTake, h], fun s hrun hasked hempty htx => ?_⟩
  · show execResetDevice tag [] s = _
    unfold execResetDevice onRequest onEvent
    rw [if_pos ht.1, requestEvent_taken _ ht, runRequest_eq_answer]
    unfold answer
    rw [settle_putReply]
    have hpump : fabPump (resetDevice [] { s with clc := s.clc.taken }).1 = (resetDevice [] { s with clc := s.clc.taken }).1 :=
      fabPump_eq_of_laneSettled hlane
    have hcheck : checked 0x02 [] resetDevice { s with clc := s.clc.taken } = resetDevice [] { s with clc := s.clc.taken } :=
      rfl
    rw [hcheck, hpump]
    unfold resetDevice Clc.replied Clc.taken Clc.answered
    dsimp only
    cases s.clc.tx <;> rfl
  · have hr : s.clc.resetAsked ∧ s.clc.replies = [] ∧ s.clc.tx.isSome :=
      ⟨hasked, hempty, Option.isSome_iff_ne_none.mpr htx⟩
    show execCtlTransmitComplete s = _
    unfold execCtlTransmitComplete onEvent
    simp only [if_pos hrun, if_pos hr, settle_eq_of_settled (deviceReset_settled _ s)]
    rfl

end Sys2Proof.Proofs
end

section
/-! SUPPORT. The events that leave ports, entries, gates and collections in peace, and the operations of the relief
cycle that every other event is made of. -/

namespace Sys2Proof.Machine

/-! ### Events aside from the relief cycle -/

/-- Nothing has changed of ports, programs, collections, entries and the binding and wanted state of gates. -/
structure Aside (s t : State) : Prop where
  prc : t.prc = s.prc
  pgs : t.pgs = s.pgs
  adu : t.adu.port = s.adu.port
  table : t.rtb.table = s.rtb.table
  arrival : t.rtb.arrival = s.rtb.arrival
  free : t.gpm.free = s.gpm.free
  lists : s.gpm.listsOk → t.gpm.listsOk
  gates : ∀ g, (t.gpm.gate g).sameWanted (s.gpm.gate g)
  pendingAdd : ∀ g, (s.gpm.gate g).pendingAdd = 0 → (t.gpm.gate g).pendingAdd = 0
  sets : s.settingsOk → t.settingsOk

theorem Aside.refl (s : State) : Aside s s := ⟨rfl, rfl, rfl, rfl, rfl, rfl, id, fun _ => .refl _, fun _ => id, id⟩

theorem Aside.trans {s t u : State} (h : Aside s t) (k : Aside t u) : Aside s u where
  prc := k.prc.trans h.prc
  pgs := k.pgs.trans h.pgs
  adu := k.adu.trans h.adu
  table := k.table.trans h.table
  arrival := k.arrival.trans h.arrival
  free := k.free.trans h.free
  lists hs := k.lists (h.lists hs)
  gates g := (k.gates g).trans (h.gates g)
  pendingAdd g hg := k.pendingAdd g (h.pendingAdd g hg)
  sets hs := k.sets (h.sets hs)

/-- The lane, the notices, the control line and the free values stand aside from the relief cycle. -/
theorem aside_of_eq {s t : State} (h : t = { s with flc := t.flc, ern := t.ern, clc := t.clc, free := t.free }) :
    Aside s t := by
  rw [h]
  exact ⟨rfl, rfl, rfl, rfl, rfl, rfl, id, fun _ => .refl _, fun _ => id, id⟩

theorem aside_fold {α : Type} {f : State → α → State} (hf : ∀ s a, Aside s (f s a)) (l : List α) (s : State) :
    Aside s (l.foldl f s) := by
  induction l generalizing s with
  | nil => exact .refl s
  | cons a l ih => exact (hf s a).trans (ih _)

/-! ### Marking the batch of an order frame -/

theorem Gate.taken_sameWanted (g : Gate) : g.taken.sameWanted g := ⟨rfl, rfl, rfl, rfl, rfl⟩

theorem Gpm.takeBatch_pendingAdd {m : Gpm} {g : GateNo} (h : (m.gate g).pendingAdd = 0) :
    (m.takeBatch.gate g).pendingAdd = 0 := by
  have key (l : List GateNo) (u : Gpm) (hu : (u.gate g).pendingAdd = 0) :
      ((l.foldl (fun m g => m.modGate g Gate.taken) u).gate g).pendingAdd = 0 := by
    induction l generalizing u with
    | nil => exact hu
    | cons k l ih =>
      refine ih _ ?_
      rw [Gpm.gate_modGate]
      split
      · rfl
      · exact hu
  exact key m.batch m h

section
variable (s : State)

theorem aside_beginFrame (records : List (List Byte)) : Aside s (beginFrame records s) := aside_of_eq rfl

theorem aside_takeBatch : Aside s { s with gpm := s.gpm.takeBatch } where
  prc := rfl
  pgs := rfl
  adu := rfl
  table := rfl
  arrival := rfl
  free := s.gpm.takeBatch_free
  lists := Gpm.takeBatch_listsOk
  gates g := s.gpm.takeBatch_sameWanted g
  pendingAdd _ := Gpm.takeBatch_pendingAdd
  sets := id

theorem aside_fabPump : Aside s (fabPump s) := by
  unfold fabPump
  split
  · exact .refl s
  split
  · exact (aside_beginFrame s (s.gpm.orders.map GateOrder.bytes)).trans
      ((aside_of_eq rfl : Aside _ (State.modLink _ _)).trans (aside_takeBatch _))
  split
  · exact aside_beginFrame s []
  split
  · exact aside_of_eq rfl
  · exact .refl s

theorem aside_ctlPump : Aside s (ctlPump s) := by
  unfold ctlPump
  split
  · exact .refl s
  split
  · exact aside_of_eq rfl
  split
  · exact .refl s
  · exact aside_of_eq rfl

theorem aside_settle : Aside s (settle s) := (aside_fabPump s).trans (aside_ctlPump _)

theorem aside_examineRecord (seq : BitVec 16) (x : List Byte × Nat) : Aside s (examineRecord seq s x) := by
  unfold examineRecord
  split <;> exact aside_of_eq rfl

theorem aside_examineRecords (seq : BitVec 16) (records : List (List Byte)) :
    Aside s (examineRecords seq records s) := aside_fold (fun s x => aside_examineRecord s seq x) _ s

end

section
variable {R : State → State → Prop} (htrans : ∀ s t u, R s t → R t u → R s u)
  (haside : ∀ s t, Aside s t → R s t) (htear : ∀ o s, R s (teardown o s))
include htrans haside htear

theorem raiseErrors_rel (s : State) : R s (raiseErrors s) := by
  unfold raiseErrors
  have hcount (n : Nat) : Aside s { s with flc := { s.flc with errCount := n } } := aside_of_eq rfl
  have hfault (u : State) : R u (declareFault u) :=
    htrans _ _ _ (haside _ _ (aside_of_eq rfl : Aside u ((State.setLink .faulted (u.modLink fun c =>
      { c with linkFaults := sat32 (c.linkFaults + 1) })).raiseDevice .linkFault u.flc.errCount))) (htear .fault _)
  dsimp only
  split
  · exact htrans _ _ _ (haside _ _ (hcount _)) (hfault _)
  · exact haside _ _ (hcount _)

theorem takeOutOfSequence_rel (seq : BitVec 16) (rs : List (List Byte)) (s : State) :
    R s (takeOutOfSequence seq rs s) := by
  have hcount : Aside s ((countTaken seq (s.modLink fun c =>
      { c with lost := sat32 (c.lost + (seq - s.flc.expected).toNat) })).offer .sequence seq 32) := aside_of_eq rfl
  have herr := htrans _ _ _ (haside _ _ hcount) (raiseErrors_rel htrans haside htear _)
  unfold takeOutOfSequence
  dsimp only
  split
  · exact htrans _ _ _ herr (haside _ _ (aside_examineRecords _ seq rs))
  · exact htrans _ _ _ herr (haside _ _ (aside_of_eq rfl))

theorem takeFrameEvent_rel (e : FrameEvent) (s : State) : R s (takeFrameEvent e s) := by
  unfold takeFrameEvent
  split
  · exact haside _ _ (.refl s)
  · exact haside _ _ (aside_of_eq rfl)
  · exact haside _ _ (aside_of_eq rfl)
  · next seq rs _ =>
    have hcount : Aside s (State.setLink .up (countTaken seq { s with flc := { s.flc with errCount := 0 } })) :=
      aside_of_eq rfl
    exact haside _ _ (hcount.trans (aside_examineRecords _ seq rs))
  · exact haside _ _ (aside_of_eq rfl)
  · next seq rs _ =>
    split
    · have hcount : Aside s (countTaken seq { s with flc := { s.flc with errCount := 0 } }) := aside_of_eq rfl
      exact haside _ _ (hcount.trans (aside_examineRecords _ seq rs))
    · exact takeOutOfSequence_rel htrans haside htear seq rs s
  · next seq _ =>
    have hcount : Aside s (countMalformed seq s) := aside_of_eq rfl
    exact htrans _ _ _ (haside _ _ hcount) (raiseErrors_rel htrans haside htear _)

/-- Frames act through the teardown, and otherwise stand aside from the relief cycle. -/
theorem takeSymbol_rel (s : State) (x : LaneSym) : R s (takeSymbol s x) := by
  unfold takeSymbol
  split
  · exact haside _ _ (.refl s)
  · have hrx : Aside s { s with flc := { s.flc with rx := (s.flc.rx.next x).1 } } := aside_of_eq rfl
    dsimp only
    split
    · exact haside _ _ hrx
    · exact htrans _ _ _ (haside _ _ hrx) (takeFrameEvent_rel htrans haside htear _ _)

theorem linkStop_rel (b : List Byte) (s : State) : R s (linkStop b s).1 := by
  have hstop (u : State) : Aside u (stopLink u) :=
    (aside_of_eq rfl : Aside u (State.setLink .stopping u)).trans (aside_fabPump _)
  unfold linkStop
  split
  · rw [linkReply_state]
    exact htrans _ _ _ (htear .linkStop s) (haside _ _ (hstop _))
  · rw [linkReply_state]
    exact htrans _ _ _ (htear .linkStop s) (haside _ _ (hstop _))
  · rw [linkReply_state]
    have hclear : Aside s { s with flc := { s.flc with errCount := 0 } } := aside_of_eq rfl
    exact haside _ _ (hclear.trans (hstop _))
  · exact haside _ _ (.refl s)
  · exact haside _ _ (.refl s)

theorem linkReset_rel (b : List Byte) (s : State) : R s (linkReset b s).1 := by
  have hsync (u : State) : Aside u (State.setLink .syncing (clearSequences u)) := aside_of_eq rfl
  unfold linkReset
  split
  · rw [linkReply_state]
    exact htrans _ _ _ (htear .linkReset s) (haside _ _ (hsync _))
  · rw [linkReply_state]
    exact htrans _ _ _ (htear .linkReset s) (haside _ _ (hsync _))
  · exact haside _ _ (hsync s)
  · exact haside _ _ (.refl s)
  · exact haside _ _ (.refl s)

end

theorem aside_linkStart (b : List Byte) (s : State) : Aside s (linkStart b s).1 := by
  unfold linkStart
  split
  · exact aside_of_eq rfl
  · exact .refl s

section
variable (s : State)

theorem aside_discardFrame (c : LineCause) : Aside s (discardFrame c s) := aside_of_eq rfl

theorem aside_queueRequest (r : CtlFrame) : Aside s (queueRequest r s) := by
  unfold queueRequest
  split <;> exact aside_of_eq rfl

theorem aside_readByte (got : List Byte) : Aside s (readByte got s) := by
  unfold readByte
  dsimp only
  split
  · exact aside_of_eq rfl
  split
  · split <;> exact aside_of_eq rfl
  split
  · exact aside_of_eq rfl
  split
  · exact (aside_of_eq rfl : Aside s (backToHunting s)).trans (aside_queueRequest _ _)
  · exact aside_discardFrame s .crc

theorem aside_byteEvent (b : Byte) : Aside s (byteEvent b s) := by
  unfold byteEvent
  split
  · split <;> exact aside_of_eq rfl
  · exact aside_readByte s _

theorem aside_framingEvent : Aside s (framingEvent s) := by
  unfold framingEvent
  split <;> exact aside_of_eq rfl

theorem aside_gapEvent : Aside s (gapEvent s) := by
  unfold gapEvent
  split
  · exact aside_discardFrame s .gap
  · exact .refl s

theorem aside_idleEvent : Aside s (idleEvent s) := by
  unfold idleEvent
  split
  · split
    · exact aside_of_eq rfl
    · exact .refl s
  · exact .refl s

/-- Only settings of the Occupancy Evaluator, the Class Map, the link and the notices, or the age limit, are written. -/
def StoreOnly (s t : State) : Prop := t = { s with
  flc := t.flc, oev := t.oev, cmp := t.cmp, ern := t.ern, rtb := { s.rtb with ageLimit := t.rtb.ageLimit } }

/-- A request that writes a setting of the Occupancy Evaluator or the Class Map, or the age limit, stands aside. -/
theorem aside_of_sound {s t : State} (h : Sound s t) (ht : StoreOnly s t) : Aside s t := by
  have hsets := h.settings
  unfold StoreOnly at ht
  rw [ht] at hsets ⊢
  exact ⟨rfl, rfl, rfl, rfl, rfl, rfl, id, fun _ => .refl _, fun _ => id, hsets⟩

end

/-! ### The operations of the relief cycle -/

/-- A relation that every operation of the relief cycle keeps to: it holds of what stands aside, and of each event and
request that changes a port, an entry, a gate or a program. -/
structure Respects (R : State → State → Prop) : Prop where
  trans : ∀ s t u, R s t → R t u → R s u
  aside : ∀ s t, Aside s t → R s t
  teardown : ∀ o s, R s (teardown o s)
  report : ∀ p seq cells d s, R s (takeReport p seq cells d s)
  sighting : ∀ h p ing srv s, R s (takeSighting h p ing srv s)
  flowEnd : ∀ h p g n s, R s (takeFlowEnd h p g n s)
  gateSpent : ∀ g ep echo h s, R s (takeGateSpent g ep echo h s)
  holdPressure : ∀ g ep h held s, R s (takeHoldPressure g ep h held s)
  debounce : ∀ p s, R s (debounceEvent p s)
  stale : ∀ p s, R s (staleEvent p s)
  guard : ∀ p s, R s (guardEvent p s)
  drain : ∀ p s, R s (drainEvent p s)
  cooldown : ∀ p s, R s (cooldownEvent p s)
  age : ∀ i s, R s (ageOut i s)
  setPort : ∀ b s, R s (setPort b s).1
  arm : ∀ p s, R s (armOn p s).1
  disarm : ∀ p s, R s (disarmOn p s).1
  startRelief : ∀ b s, R s (startRelief b s).1
  stopRelief : ∀ p s, R s (stopReliefOn p s).1
  pause : ∀ p s, R s (pauseOn p s).1
  resume : ∀ p s, R s (resumeOn p s).1
  writeProgram : ∀ b s, R s (writeProgram b s).1

namespace Respects

variable {R : State → State → Prop} (h : Respects R)
include h

theorem refl (s : State) : R s s := h.aside _ _ (.refl s)

theorem effectOf (c : Instr) (s : State) : R s (effectOf c s).1 := by
  have hsound := sound_effectOf c s
  have hsame {s t : State} (ht : t = s) : R s t := ht ▸ h.refl s
  cases c with
  | resetDevice t b => exact checked_rel h.refl (fun s => h.aside _ _ (aside_of_eq rfl)) s
  | setDevice t b => exact checked_rel h.refl (fun s => h.aside _ _ (aside_of_sound (sound_setDevice b s) rfl)) s
  | linkStart t b => exact checked_rel h.refl (fun s => h.aside _ _ (aside_linkStart b s)) s
  | linkStop t b => exact checked_rel h.refl (linkStop_rel h.trans h.aside h.teardown b) s
  | linkReset t b => exact checked_rel h.refl (linkReset_rel h.trans h.aside h.teardown b) s
  | setPort t b => exact checked_rel h.refl (h.setPort b) s
  | getPort t b => exact checked_rel h.refl (withPort_rel h.refl (fun p s => h.aside _ _ (aside_of_eq rfl)) b) s
  | arm t b => exact checked_rel h.refl (withPort_rel h.refl h.arm b) s
  | disarm t b => exact checked_rel h.refl (withPort_rel h.refl h.disarm b) s
  | startRelief t b => exact checked_rel h.refl (h.startRelief b) s
  | stopRelief t b => exact checked_rel h.refl (withPort_rel h.refl h.stopRelief b) s
  | pause t b => exact checked_rel h.refl (withPort_rel h.refl h.pause b) s
  | resume t b => exact checked_rel h.refl (withPort_rel h.refl h.resume b) s
  | setLevels t b =>
    exact h.aside _ _ (aside_of_sound hsound (checked_rel (R := StoreOnly) (fun _ => rfl)
      (fun s => setLevels_cases (P := StoreOnly s) b rfl fun _ _ => rfl) s))
  | setWindow t b =>
    exact h.aside _ _ (aside_of_sound hsound (checked_rel (R := StoreOnly) (fun _ => rfl)
      (fun s => setWindow_cases (P := StoreOnly s) b rfl fun _ _ _ _ _ => rfl) s))
  | setDefaultClass t b =>
    exact h.aside _ _ (aside_of_sound hsound (checked_rel (R := StoreOnly) (fun _ => rfl)
      (fun s => setDefaultClass_cases (P := StoreOnly s) b rfl fun _ _ => rfl) s))
  | writeProgram t b => exact checked_rel h.refl (h.writeProgram b) s
  | clearHistory t b => exact checked_rel h.refl (fun s => h.aside _ _ (aside_of_eq rfl)) s
  | setNoticeLevels t b =>
    exact h.aside _ _ (aside_of_sound hsound (checked_rel (R := StoreOnly) (fun _ => rfl)
      (fun s => setNoticeLevels_cases (P := StoreOnly s) b rfl fun _ _ => rfl) s))
  | readFault t b => exact checked_rel h.refl (fun s => h.aside _ _ (aside_of_eq rfl)) s
  | identify t b => exact checked_rel h.refl h.refl s
  | status t b => exact checked_rel h.refl h.refl s
  | time t b => exact checked_rel h.refl h.refl s
  | getLevels t b => exact checked_rel h.refl (fun s => hsame (state_getLevels s b)) s
  | getWindow t b => exact checked_rel h.refl (fun s => hsame (state_getWindow s b)) s
  | readProgram t b => exact checked_rel h.refl (fun s => hsame (state_readProgram s b)) s
  | readTable t b => exact checked_rel h.refl (fun s => hsame (state_readTable s b)) s
  | _ => exact h.refl s

theorem act {c : Instr} {s t : State} (ha : Act c s t) : R s t := by
  cases ha with
  | settle => exact h.aside _ _ (aside_settle s)
  | symbol _ x => exact takeSymbol_rel h.trans h.aside h.teardown s x
  | joinRecords _ r => exact h.aside _ _ (aside_of_eq rfl)
  | leaveRecords _ r => exact h.aside _ _ (aside_of_eq rfl)
  | report p seq cells d => exact h.report p seq cells d s
  | sighting k p ing srv => exact h.sighting k p ing srv s
  | flowEnd k p g left => exact h.flowEnd k p g _ s
  | gateSpent g ep echo k => exact h.gateSpent g ep echo k s
  | holdPressure g ep k held => exact h.holdPressure g ep k held s
  | debounce p => exact h.debounce p s
  | stale p => exact h.stale p s
  | guard p => exact h.guard p s
  | drain p => exact h.drain p s
  | cooldown p => exact h.cooldown p s
  | age i => exact h.age i s
  | idle => exact h.aside _ _ (aside_idleEvent s)
  | laneFree => exact h.aside _ _ (aside_of_eq rfl)
  | byte b => exact h.aside _ _ (aside_byteEvent s b)
  | framing => exact h.aside _ _ (aside_framingEvent s)
  | gap => exact h.aside _ _ (aside_gapEvent s)
  | lineFree => exact h.aside _ _ (aside_of_eq rfl)
  | queue _ r => exact h.aside _ _ (aside_queueRequest s r)
  | request _ r _ _ =>
    exact h.trans _ _ _ (h.trans _ _ _ (h.aside _ _ (aside_of_eq rfl : Aside s (dropHead s))) (h.effectOf c _)) (h.aside _ _ (aside_of_eq rfl))

theorem acts {c : Instr} {s t : State} (ha : Acts c s t) : R s t := ha.rel h.refl (h.trans _ _ _) h.act

end Respects

end Sys2Proof.Machine
end

section
/-! SUPPORT. The stages that an opening, a step, the drain phase and an episode end are made of, and what each leaves in
the port it changes (R87, R95, R99, R102, R103, R110). -/

namespace Sys2Proof.Machine

/-! ### Changes of a port's state and timers -/

section
variable (p : Port) (s : State)

theorem State.prcAt_enterPort (st : PortState) : (s.enterPort p st).prcAt p = (s.prcAt p).enter st :=
  State.prcAt_modPrc_self s p _

theorem State.prcAt_modPrc_ne (f : PrcPort → PrcPort) {r : Port} (h : r ≠ p) : (s.modPrc p f).prcAt r = s.prcAt r := by
  rw [State.prcAt_modPrc, if_neg h]

theorem State.prcAt_modEpisode_self (f : Episode → Episode) :
    (s.modEpisode p f).prcAt p = { s.prcAt p with episode := f (s.prcAt p).episode } := State.prcAt_modPrc_self s p _

theorem State.prcAt_modEpisode_ne (f : Episode → Episode) {r : Port} (h : r ≠ p) :
    (s.modEpisode p f).prcAt r = s.prcAt r := State.prcAt_modPrc_ne p s _ h

theorem State.prcAt_enterPort_ne (st : PortState) {r : Port} (h : r ≠ p) : (s.enterPort p st).prcAt r = s.prcAt r :=
  State.prcAt_modPrc_ne p s _ h

theorem PrcPort.enter_relief (q : PrcPort) : q.enter .relief = { q with
    state := .relief, qualified := false, debounce := .stopped, drain := .stopped, cooldown := .stopped } := by
  simp [PrcPort.enter, Timer.keptIf, PortState.runsStale, PortState.runsGuard]

theorem PrcPort.enter_idle (q : PrcPort) : q.enter .idle = { q with
    state := .idle, qualified := false, debounce := .stopped, stale := .stopped, guard := .stopped, drain := .stopped
    cooldown := .stopped } := by
  simp [PrcPort.enter, Timer.keptIf, PortState.runsStale, PortState.runsGuard]

theorem PrcPort.enter_disarmed (q : PrcPort) : q.enter .disarmed = { q with
    state := .disarmed, qualified := false, debounce := .stopped, stale := .stopped, guard := .stopped
    drain := .stopped, cooldown := .stopped } := by
  simp [PrcPort.enter, Timer.keptIf, PortState.runsStale, PortState.runsGuard]

theorem PrcPort.enter_cooldown (q : PrcPort) : q.enter .cooldown = { q with
    state := .cooldown, qualified := false, debounce := .stopped, stale := .stopped, guard := .stopped
    drain := .stopped } := by
  simp [PrcPort.enter, Timer.keptIf, PortState.runsStale, PortState.runsGuard]

theorem PrcPort.enter_drain (q : PrcPort) : q.enter .drain = { q with
    state := .drain, qualified := false, debounce := .stopped, guard := .stopped, cooldown := .stopped } := by
  simp [PrcPort.enter, Timer.keptIf, PortState.runsStale, PortState.runsGuard]

theorem PrcPort.enter_paused (q : PrcPort) : q.enter .paused = { q with
    state := .paused, qualified := false, debounce := .stopped, drain := .stopped, cooldown := .stopped } := by
  simp [PrcPort.enter, Timer.keptIf, PortState.runsStale, PortState.runsGuard]

/-! ### Entering a step (R110) -/

/-- The step at an index of the port's program. -/
def State.stepAt (s : State) (p : Port) (index : Nat) : Step :=
  (s.pgs.programs[(s.prcAt p).episode.program]).getD index Step.none

/-- The guard timer that a step starts, or none (R110). -/
def Step.guardFrom (st : Step) (now : Nat) : Timer := if st.guard = 0 then .stopped else .running now st.guard

/-- The state in which a step has been entered and the refill follows: index, count, S and guard (R110). -/
def stepStarted (p : Port) (index : Nat) (s : State) : State :=
  ((s.modEpisode p fun e => { e with stepIndex := index, stepsEntered := e.stepsEntered + 1 }).modCru p fun c =>
    { c with s := 0 }).modPrc p fun q => { q with guard := (s.stepAt p index).guardFrom s.now }

theorem stepStarted_currentStep (index : Nat) : (stepStarted p index s).currentStep p = s.stepAt p index := by
  unfold State.currentStep stepStarted State.stepAt
  simp only [State.prcAt_modPrc_self, State.modCru_prcAt, State.prcAt_modEpisode_self, State.modPrc_pgs, State.modCru_pgs,
    State.modEpisode_pgs]

theorem enterStep_eq (index : Nat) (byGuard : Bool) : enterStep p index byGuard s =
    (rerate p (refill p (stepStarted p index s))).raiseEpisode .episodeStep p (index + mark128 byGuard) := by
  have hstep : State.currentStep ((s.modEpisode p fun e =>
      { e with stepIndex := index, stepsEntered := e.stepsEntered + 1 }).modCru p fun c => { c with s := 0 }) p =
      s.stepAt p index := by
    unfold State.currentStep State.stepAt
    simp only [State.modCru_prcAt, State.prcAt_modEpisode_self, State.modCru_pgs, State.modEpisode_pgs]
  unfold enterStep
  dsimp only
  rw [hstep]
  rfl

theorem stepStarted_prcAt (index : Nat) : (stepStarted p index s).prcAt p =
    { s.prcAt p with
      guard := (s.stepAt p index).guardFrom s.now
      episode := { (s.prcAt p).episode with
        stepIndex := index, stepsEntered := (s.prcAt p).episode.stepsEntered + 1 } } := by
  rw [stepStarted, State.prcAt_modPrc_self, State.modCru_prcAt, State.prcAt_modEpisode_self]

theorem stepStarted_prcAt_ne (index : Nat) {r : Port} (h : r ≠ p) : (stepStarted p index s).prcAt r = s.prcAt r := by
  rw [stepStarted, State.prcAt_modPrc_ne p _ _ h, State.modCru_prcAt, State.prcAt_modEpisode_ne p _ _ h]

theorem stepStarted_cruAt (index : Nat) (r : Port) : (stepStarted p index s).cruAt r =
    if r = p then { s.cruAt p with s := 0 } else s.cruAt r := by
  rw [stepStarted, State.modPrc_cruAt, State.cruAt_modCru]
  split
  · rfl
  · rfl

/-! ### Opening an episode (R95) -/

/-- The state in which an episode has been opened and the opening fill follows. -/
def beginEpisode (p : Port) (o : Origin) (q : ProgNo) (s : State) : State :=
  let n := nextEpisodeNumber s.prc.episodeCounter
  let s1 : State := { s with prc := { s.prc with episodeCounter := n } }
  let s2 := ((s1.modEpisode p fun _ => Episode.start n o q s.now).modOev p fun o => { o with peak := o.level }).modCru p
    fun _ => ⟨0, 0⟩
  (s2.enterPort p .relief).modPrc p fun x =>
    { x with guard := .stopped, stale := if x.stale.active then x.stale else .startAt s.now x.config.ts }

theorem openEpisode_eq (o : Origin) (q : ProgNo) : openEpisode p o q s =
    (enterStep p 0 false (openingFill p (beginEpisode p o q s))).raiseEpisode .episodeOpen p
      (q.val + mark128 (o == .manual)) := rfl

theorem beginEpisode_prcAt (o : Origin) (q : ProgNo) : (beginEpisode p o q s).prcAt p = { s.prcAt p with
    state := .relief, qualified := false, debounce := .stopped, guard := .stopped, drain := .stopped
    cooldown := .stopped
    stale := if (s.prcAt p).stale.active then (s.prcAt p).stale else .running s.now (s.prcAt p).config.ts
    episode := Episode.start (nextEpisodeNumber s.prc.episodeCounter) o q s.now } := by
  unfold beginEpisode
  dsimp only
  rw [State.prcAt_modPrc_self, State.prcAt_enterPort, PrcPort.enter_relief, State.modCru_prcAt, State.modOev_prcAt,
    State.prcAt_modEpisode_self]
  rfl

theorem beginEpisode_prcAt_ne (o : Origin) (q : ProgNo) {r : Port} (h : r ≠ p) :
    (beginEpisode p o q s).prcAt r = s.prcAt r := by
  unfold beginEpisode
  dsimp only
  rw [State.prcAt_modPrc_ne p _ _ h, State.prcAt_enterPort_ne p _ _ h, State.modCru_prcAt, State.modOev_prcAt,
    State.prcAt_modEpisode_ne p _ _ h]
  rfl

/-! ### Release, return and the freeing of gates leave the ports alone -/

/-- Only gates and entries have changed, and no slot has been emptied or filled. -/
def GatesAndEntries (s t : State) : Prop := t = { s with gpm := t.gpm, rtb := { s.rtb with table := t.rtb.table } }

theorem GatesAndEntries.refl : GatesAndEntries s s := rfl

theorem GatesAndEntries.trans {s t u : State} (h : GatesAndEntries s t) (k : GatesAndEntries t u) :
    GatesAndEntries s u := by
  unfold GatesAndEntries at *
  rw [k, h]

theorem gatesAndEntries_freeGateOf (i : Slot) : GatesAndEntries s (freeGateOf i s) := by
  unfold freeGateOf
  split <;> rfl

theorem gatesAndEntries_onGateOf (i : Slot) (f : GateNo → Gpm → Gpm) : GatesAndEntries s (onGateOf i f s) := by
  unfold onGateOf
  split <;> rfl

theorem gatesAndEntries_modEntry (i : Slot) (f : Entry → Entry) : GatesAndEntries s (s.modEntry i f) := rfl

theorem gatesAndEntries_releaseEntry (i : Slot) : GatesAndEntries s (releaseEntry s i) := by
  unfold releaseEntry
  split
  · rfl
  split
  · exact (gatesAndEntries_onGateOf s i _).trans (gatesAndEntries_modEntry _ i _)
  · rfl

theorem gatesAndEntries_returnEntry (i : Slot) : GatesAndEntries s (returnEntry s i) :=
  (gatesAndEntries_freeGateOf s i).trans (gatesAndEntries_modEntry _ i _)

theorem gatesAndEntries_fold {α : Type} {f : State → α → State} (hf : ∀ s a, GatesAndEntries s (f s a)) (l : List α) :
    GatesAndEntries s (l.foldl f s) := by
  induction l generalizing s with
  | nil => rfl
  | cons a l ih => exact (hf s a).trans (ih _)

/-- The release changes gates, entries and the port's collections only (R137). -/
theorem releaseAll_rest : releaseAll p s = { s with
    gpm := (releaseAll p s).gpm
    rtb := { s.rtb with table := (releaseAll p s).rtb.table }
    adu := { s.adu with port := modAt s.adu.port p fun _ => ⟨[], []⟩ } } := by
  have h := gatesAndEntries_fold s gatesAndEntries_releaseEntry s.rtb.arrival[p]
  unfold GatesAndEntries at h
  unfold releaseAll
  rw [h]
  rfl

/-- The return changes gates, entries and the port's collections only (R138). -/
theorem returnAll_rest : returnAll p s = { s with
    gpm := (returnAll p s).gpm
    rtb := { s.rtb with table := (returnAll p s).rtb.table }
    adu := { s.adu with port := modAt s.adu.port p fun _ => ⟨[], []⟩ } } := by
  have h := gatesAndEntries_fold s gatesAndEntries_returnEntry s.rtb.arrival[p]
  unfold GatesAndEntries at h
  unfold returnAll
  rw [h]
  rfl

@[simp] theorem releaseAll_prcAt (r : Port) : (releaseAll p s).prcAt r = s.prcAt r := by rw [releaseAll_rest]; rfl
@[simp] theorem returnAll_prcAt (r : Port) : (returnAll p s).prcAt r = s.prcAt r := by rw [returnAll_rest]; rfl

theorem releaseAll_aduAt (r : Port) : (releaseAll p s).aduAt r = if r = p then ⟨[], []⟩ else s.aduAt r := by
  rw [releaseAll_rest]
  exact State.aduAt_modAdu s p r _

theorem returnAll_aduAt (r : Port) : (returnAll p s).aduAt r = if r = p then ⟨[], []⟩ else s.aduAt r := by
  rw [returnAll_rest]
  exact State.aduAt_modAdu s p r _

/-! ### The drain phase (R99) -/

theorem enterDrain_prcAt : (enterDrain p s).prcAt p =
    { (s.prcAt p).enter .drain with drain := .running s.now (s.prcAt p).config.tdr } := by
  unfold enterDrain
  dsimp only
  rw [State.prcAt_modPrc_self, releaseAll_prcAt, State.prcAt_enterPort]
  rfl

theorem enterDrain_prcAt_ne {r : Port} (h : r ≠ p) : (enterDrain p s).prcAt r = s.prcAt r := by
  unfold enterDrain
  dsimp only
  rw [State.prcAt_modPrc_ne p _ _ h, releaseAll_prcAt, State.prcAt_enterPort_ne p _ _ h]

/-! ### The episode end (R102) -/

/-- A standby is discarded by an end that does not let it start (R103). -/
def PrcPort.discards (q : PrcPort) (o : EpisodeOutcome) : Bool :=
  q.standby.isSome && !letsStandbyStart o q.config.stall

/-- The closed record of a port's episode (R102, items 1 and 4). -/
def PrcPort.closed (q : PrcPort) (o : EpisodeOutcome) (now : Nat) : Episode :=
  { q.episode with clock := ⟨q.episode.clock.read now, none⟩, outcome := some o, standbyDiscarded := q.discards o }

/-- The state of an end before its summary and its notice. -/
def returned (p : Port) (o : EpisodeOutcome) (s : State) : State :=
  ((returnAll p (s.modEpisode p fun e => { e with clock := e.clock.halt s.now })).modCru p fun _ => ⟨0, 0⟩).modEpisode p
    fun e => { e with outcome := some o, standbyDiscarded := (s.prcAt p).discards o }

theorem closeEpisode_eq (o : EpisodeOutcome) : closeEpisode p o s =
    State.raiseEpisode .episodeEnd p (o.code + mark128 ((s.prcAt p).discards o)) { returned p o s with
      ern := (returned p o s).ern.append
        (((returned p o s).prcAt p).episode.summary p o ((returned p o s).oevAt p).peak) } := rfl

theorem returned_prcAt (o : EpisodeOutcome) : (returned p o s).prcAt p =
    { s.prcAt p with episode := (s.prcAt p).closed o s.now } := by
  unfold returned
  rw [State.prcAt_modEpisode_self, State.modCru_prcAt, returnAll_prcAt, State.prcAt_modEpisode_self]
  rfl

theorem returned_prcAt_ne (o : EpisodeOutcome) {r : Port} (h : r ≠ p) : (returned p o s).prcAt r = s.prcAt r := by
  unfold returned
  rw [State.prcAt_modEpisode_ne p _ _ h, State.modCru_prcAt, returnAll_prcAt, State.prcAt_modEpisode_ne p _ _ h]

theorem closeEpisode_prcAt (o : EpisodeOutcome) : (closeEpisode p o s).prcAt p =
    { s.prcAt p with episode := (s.prcAt p).closed o s.now } := returned_prcAt p s o

theorem closeEpisode_prcAt_ne (o : EpisodeOutcome) {r : Port} (h : r ≠ p) : (closeEpisode p o s).prcAt r = s.prcAt r :=
  returned_prcAt_ne p s o h

theorem clearStandby_prcAt : (clearStandby p s).prcAt p = { s.prcAt p with standby := none } :=
  State.prcAt_modPrc_self s p _

/-- Where an end without a standby leaves its port (R103): by outcome, cooldown setting and stall action. -/
def PrcPort.afterEnd (q : PrcPort) (o : EpisodeOutcome) : PortState :=
  let rest : PortState := if q.config.tc = 0 then .idle else .cooldown
  match o with
  | .drainStall => match q.config.stall with | .disarm => .disarmed | .cooldown => rest
  | .completed => rest
  | .stale => rest
  | .aborted => rest
  | .disarmed => .disarmed
  | .fault => .idle
  | .linkStop => .idle
  | .linkReset => .idle

theorem toCooldown_eq : toCooldown p s = s.modPrc p fun q =>
    if (s.prcAt p).config.tc = 0 then q.enter .idle
    else { q.enter .cooldown with cooldown := .running s.now q.config.tc } := by
  unfold toCooldown State.enterPort
  split
  · rfl
  · rw [State.modPrc_modPrc]; rfl

end

end Sys2Proof.Machine
end

section
/-! SUPPORT. The timers of a port through every event (R87, R103, Table 6-3). -/

namespace Sys2Proof.Machine

/-! ### Operations that leave the timers alone -/

/-- A port's state, timers and standby, without its episode record. -/
def PrcPort.cycle (q : PrcPort) : PrcPort := { q with episode := Episode.reset }

theorem PrcPort.timersOk_of_cycle {q r : PrcPort} (h : r.cycle = q.cycle) (hq : q.timersOk) : r.timersOk := by
  have hcycle : r.cycle.timersOk := h ▸ (hq : q.cycle.timersOk)
  exact hcycle

/-- No port's state, timers or standby has changed. -/
structure CycleKept (s t : State) : Prop where
  same : ∀ p, (t.prcAt p).cycle = (s.prcAt p).cycle

theorem CycleKept.refl (s : State) : CycleKept s s := ⟨fun _ => rfl⟩

theorem CycleKept.trans {s t u : State} (h : CycleKept s t) (k : CycleKept t u) : CycleKept s u :=
  ⟨fun p => (k.same p).trans (h.same p)⟩

theorem CycleKept.fold {α : Type} {f : State → α → State} (hf : ∀ s a, CycleKept s (f s a)) (l : List α) (s : State) :
    CycleKept s (l.foldl f s) := by
  induction l generalizing s with
  | nil => exact .refl s
  | cons a l ih => exact (hf s a).trans (ih _)

theorem cycleKept_of_prc {s t : State} (h : t.prc = s.prc) : CycleKept s t := ⟨fun p => by
  unfold State.prcAt
  rw [h]⟩

theorem CycleKept.then {s t u : State} (h : CycleKept s t) (hu : u.prc = t.prc) : CycleKept s u :=
  h.trans (cycleKept_of_prc hu)

theorem AtEntry.cycleKept {p : Port} {i : Slot} {s t : State} (h : AtEntry p i s t) : CycleKept s t := ⟨fun q => by
  by_cases hq : q = p
  · subst hq
    have hport := congrArg PrcPort.cycle h.port
    exact hport
  · rw [(h.others q hq).1]⟩

section
variable (p : Port) (s : State)

theorem cycleKept_modEpisode (f : Episode → Episode) : CycleKept s (s.modEpisode p f) := ⟨fun q => by
  rw [State.modEpisode, State.prcAt_modPrc]
  split
  · next h => rw [h]; rfl
  · rfl⟩

theorem cycleKept_modCru (f : CruPort → CruPort) : CycleKept s (s.modCru p f) := cycleKept_of_prc rfl

theorem cycleKept_modAdu (f : AduPort → AduPort) : CycleKept s (s.modAdu p f) := cycleKept_of_prc rfl

theorem cycleKept_removeEntry (i : Slot) : CycleKept s (s.removeEntry i) := cycleKept_of_prc rfl

theorem cycleKept_raiseEpisode (c : NoticeClass) (v : Nat) : CycleKept s (s.raiseEpisode c p v) := cycleKept_of_prc rfl

theorem cycleKept_append (x : Summary) : CycleKept s { s with ern := s.ern.append x } := cycleKept_of_prc rfl

theorem cycleKept_onGateOf (i : Slot) (f : GateNo → Gpm → Gpm) : CycleKept s (onGateOf i f s) := by
  unfold onGateOf
  split <;> exact cycleKept_of_prc rfl

theorem cycleKept_admitWaiting (mark : Bool) (i : Slot) : CycleKept s (admitWaiting p mark i s) := by
  unfold admitWaiting
  refine CycleKept.trans ?_ (atEntry_joinAdmitted p i _ mark).cycleKept
  exact (cycleKept_onGateOf s i _).then rfl

theorem cycleKept_refill : CycleKept s (refill p s) := by
  unfold refill
  split
  · refine CycleKept.fold (fun s i => ?_) _ s
    split
    · exact cycleKept_admitWaiting p s false i
    · exact .refl s
  · exact .refl s

theorem cycleKept_rerate : CycleKept s (rerate p s) := ⟨fun q => by rw [rerate_prcAt]⟩

theorem cycleKept_rerateIfChanged (k : Nat) : CycleKept s (rerateIfChanged p k s) := by
  unfold rerateIfChanged
  split
  · exact .refl s
  · exact cycleKept_rerate p s

theorem cycleKept_holdOrBypass (i : Slot) : CycleKept s (holdOrBypass p i s) := by
  unfold holdOrBypass
  split
  · exact (atEntry_hold p i s).cycleKept
  · exact (atEntry_bypass p i s).cycleKept

theorem cycleKept_placeAtOpening (i : Slot) : CycleKept s (placeAtOpening p s i) := by
  unfold placeAtOpening
  dsimp only
  split
  · exact ((atEntry_takeEntry p i s).trans (atEntry_admitNew p i _)).cycleKept
  · have htake : CycleKept s (takeEntry i s) := cycleKept_of_prc rfl
    exact htake.trans (cycleKept_holdOrBypass p _ i)

theorem cycleKept_openingFill : CycleKept s (openingFill p s) := CycleKept.fold (cycleKept_placeAtOpening p) _ s

theorem cycleKept_placeArrival (i : Slot) : CycleKept s (placeArrival p i s) := by
  unfold placeArrival
  split
  · exact (atEntry_admitNew p i s).cycleKept
  · exact cycleKept_holdOrBypass p s i

theorem cycleKept_arrive (i : Slot) : CycleKept s (arrive p i s) :=
  (((cycleKept_of_prc rfl : CycleKept s (takeEntry i s)).trans (cycleKept_placeArrival p _ i)).trans (cycleKept_refill p _)).trans
    (cycleKept_rerateIfChanged p _ _)

theorem cycleKept_freeGateOf (i : Slot) : CycleKept s (freeGateOf i s) := (atEntry_freeGateOf 0 i s).cycleKept

theorem cycleKept_addToPool (n : Nat) : CycleKept s (addToPool p n s) := by
  unfold addToPool
  split <;> exact cycleKept_of_prc rfl

theorem cycleKept_creditReport (l d : Nat) : CycleKept s (creditReport p l d s) := by
  unfold creditReport
  refine CycleKept.trans ?_ (cycleKept_addToPool p _ _)
  exact (cycleKept_modCru p s _).trans (cycleKept_modEpisode p _ _)

theorem cycleKept_distribute : CycleKept s (distribute p s) := by
  unfold distribute
  dsimp only
  split
  · exact .refl s
  split
  · exact .refl s
  · exact cycleKept_of_prc (by rw [grants_rest])

theorem cycleKept_holdPressureOn (i : Slot) (held : BitVec 24) : CycleKept s (holdPressureOn i held s) := by
  unfold holdPressureOn
  split
  · exact .refl s
  · next e _ =>
    have hheld : CycleKept s (s.modEntry i fun x => { x with lastHeld := some held }) := cycleKept_of_prc rfl
    dsimp only
    split
    · split
      · exact (hheld.trans (cycleKept_admitWaiting e.port _ true i)).trans (cycleKept_rerate e.port _)
      · exact hheld.trans (atEntry_bypass e.port i _).cycleKept
    · exact cycleKept_of_prc rfl

theorem cycleKept_endEntry (i : Slot) (e : Entry) (named : Option GateRef) (left : Nat) :
    CycleKept s (endEntry i e named left s) := by
  unfold endEntry
  dsimp only
  have hcount : CycleKept s (if gateMismatch e.gate named then
      s.modRtbCtr fun c => { c with gateMismatches := sat32 (c.gateMismatches + 1) } else s) := by
    split <;> exact cycleKept_of_prc rfl
  refine hcount.trans ?_
  generalize (if gateMismatch e.gate named then
      s.modRtbCtr fun c => { c with gateMismatches := sat32 (c.gateMismatches + 1) } else s) = u
  have hfree (v : State) : CycleKept v (freeGateOf i v) := cycleKept_freeGateOf v i
  split
  · unfold endAdmitted
    dsimp only
    refine CycleKept.trans ?_ ((cycleKept_refill e.port _).trans (cycleKept_rerate e.port _))
    have hpool : CycleKept u (if refunds e.gate named (u.prcAt e.port).state then addToPool e.port left u else u) := by
      split
      · exact cycleKept_addToPool e.port u left
      · exact .refl u
    refine CycleKept.trans ?_ (cycleKept_removeEntry _ i)
    refine CycleKept.trans ?_ (cycleKept_modEpisode e.port _ _)
    refine CycleKept.trans ?_ (cycleKept_modAdu e.port _ _)
    exact hpool.trans (hfree _)
  · unfold endWaiting
    dsimp only
    refine CycleKept.trans ?_ (cycleKept_removeEntry _ i)
    refine CycleKept.trans ?_ (cycleKept_modEpisode e.port _ _)
    exact (hfree u).trans (cycleKept_modAdu e.port _ _)
  · exact (hfree u).then rfl
  all_goals exact cycleKept_of_prc rfl

theorem cycleKept_takeFlowEnd (h : BitVec 32) (named : Option GateRef) (left : Nat) :
    CycleKept s (takeFlowEnd h p named left s) := by
  unfold takeFlowEnd
  have hcount : CycleKept s (s.modRtbCtr fun c => { c with flowEnds := sat32 (c.flowEnds + 1) }) := cycleKept_of_prc rfl
  refine hcount.trans ?_
  dsimp only
  split
  · exact cycleKept_of_prc rfl
  · exact cycleKept_endEntry _ _ _ _ _

end

/-! ### Changes of one port -/

/-- The event keeps every port's timers to the states that run them. -/
structure TimersKept (s t : State) : Prop where
  keeps : (∀ p, (s.prcAt p).timersOk) → ∀ p, (t.prcAt p).timersOk

theorem TimersKept.trans {s t u : State} (h : TimersKept s t) (k : TimersKept t u) : TimersKept s u :=
  ⟨fun hs => k.keeps (h.keeps hs)⟩

theorem CycleKept.timers {s t : State} (h : CycleKept s t) : TimersKept s t :=
  ⟨fun hs p => PrcPort.timersOk_of_cycle (h.same p) (hs p)⟩

theorem timersKept_of_prc {s t : State} (h : t.prc = s.prc) : TimersKept s t := (cycleKept_of_prc h).timers

theorem timersKept_refl (s : State) : TimersKept s s := ⟨id⟩

/-- Between `s` and `t` the state, timers and standby of no port but `p` have changed. -/
structure CycleOf (p : Port) (s t : State) : Prop where
  same : ∀ r, r ≠ p → (t.prcAt r).cycle = (s.prcAt r).cycle

theorem CycleOf.trans {p : Port} {s t u : State} (h : CycleOf p s t) (k : CycleOf p t u) : CycleOf p s u :=
  ⟨fun r hr => (k.same r hr).trans (h.same r hr)⟩

theorem CycleKept.of {s t : State} (h : CycleKept s t) (p : Port) : CycleOf p s t := ⟨fun r _ => h.same r⟩

theorem cycleOf_modPrc (p : Port) (f : PrcPort → PrcPort) (s : State) : CycleOf p s (s.modPrc p f) :=
  ⟨fun _ hr => by rw [State.prcAt_modPrc_ne p s f hr]⟩

theorem cycleOf_enterPort (p : Port) (st : PortState) (s : State) : CycleOf p s (s.enterPort p st) :=
  cycleOf_modPrc p _ s

/-- An event of one port keeps the timers if it leaves that port's as Table 6-3 says. -/
theorem CycleOf.timers {p : Port} {s t : State} (h : CycleOf p s t)
    (hp : (s.prcAt p).timersOk → (t.prcAt p).timersOk) : TimersKept s t := ⟨fun hs r => by
  by_cases hr : r = p
  · rw [hr]
    exact hp (hs p)
  · exact PrcPort.timersOk_of_cycle (h.same r hr) (hs r)⟩

section
variable {q : PrcPort}

/-- A port that rests in IDLE or DISARMED runs no timer. -/
theorem PrcPort.enter_resting (st : PortState) (hst : st = .idle ∨ st = .disarmed) (hstandby : q.standby = none) :
    (q.enter st).timersOk := by
  rcases hst with rfl | rfl <;>
    simp [PrcPort.timersOk, PrcPort.enter, Timer.keptIf, Timer.active, PortState.runsStale, PortState.runsGuard, hstandby]

/-- A standby is held with an episode only (R103). -/
theorem PrcPort.timersOk.no_standby (h : q.timersOk) (hst : q.state.hasEpisode = false) : q.standby = none := by
  obtain ⟨_, _, _, _, _, _, _, _, hstandby⟩ := h
  cases hq : q.standby with
  | none => rfl
  | some x => rw [hstandby (by rw [hq]; rfl)] at hst; cases hst

end

section
variable (p : Port) (s : State)

theorem timersKept_rest (st : PortState) (hst : st = .idle ∨ st = .disarmed)
    (hno : (s.prcAt p).state.hasEpisode = false) : TimersKept s (s.enterPort p st) :=
  (cycleOf_enterPort p st s).timers fun h => by
    rw [State.prcAt_enterPort]
    exact PrcPort.enter_resting st hst (h.no_standby hno)

/-! ### Steps, the drain phase and reports -/

/-- Entering a step changes the guard of its port, and no other timer. -/
theorem enterStep_cycle (index : Nat) (byGuard : Bool) :
    ((enterStep p index byGuard s).prcAt p).cycle =
      { (s.prcAt p).cycle with guard := (s.stepAt p index).guardFrom s.now } ∧
    CycleOf p s (enterStep p index byGuard s) := by
  rw [enterStep_eq]
  have hlast : CycleKept (stepStarted p index s) ((rerate p (refill p (stepStarted p index s))).raiseEpisode
      .episodeStep p (index + mark128 byGuard)) :=
    ((cycleKept_refill p _).trans (cycleKept_rerate p _)).trans (cycleKept_raiseEpisode p _ _ _)
  refine ⟨(hlast.same p).trans (by rw [stepStarted_prcAt]; rfl), ⟨fun r hr => (hlast.same r).trans ?_⟩⟩
  rw [stepStarted_prcAt_ne p s index hr]

/-- A guard timer runs or has stopped; it is frozen by a pause only. -/
theorem Step.guardFrom_not_frozen (st : Step) (now : Nat) : ¬∃ a b, st.guardFrom now = .frozen a b := by
  rintro ⟨a, b, h⟩
  unfold Step.guardFrom at h
  split at h <;> cases h

theorem timersKept_enterStep (index : Nat) (byGuard : Bool) (hst : (s.prcAt p).state = .relief) :
    TimersKept s (enterStep p index byGuard s) := by
  obtain ⟨hp, hothers⟩ := enterStep_cycle p s index byGuard
  refine hothers.timers fun h => PrcPort.timersOk_of_cycle
    (q := { s.prcAt p with guard := (s.stepAt p index).guardFrom s.now }) hp ?_
  obtain ⟨h1, h2, h3, h4, h5, h6⟩ := h
  exact ⟨h1, h2, fun _ => by rw [hst]; rfl, fun hf => absurd hf (Step.guardFrom_not_frozen _ _), fun _ => hst, h6⟩

theorem timersKept_enterDrain (hst : (s.prcAt p).state = .relief) : TimersKept s (enterDrain p s) := by
  refine CycleOf.timers ⟨fun r hr => by rw [enterDrain_prcAt_ne p s hr]⟩ fun h => ?_
  obtain ⟨_, h2, _⟩ := h
  have hstale : (s.prcAt p).stale.active = true := h2.mpr (by rw [hst]; rfl)
  rw [enterDrain_prcAt, PrcPort.enter_drain]
  exact ⟨nofun, iff_of_true hstale rfl, nofun, nofun, nofun, iff_of_true rfl rfl, iff_of_false nofun nofun, nofun,
    fun _ => rfl⟩

theorem timersKept_endStep (byGuard : Bool) (hst : (s.prcAt p).state = .relief) :
    TimersKept s (endStep p byGuard s) := by
  unfold endStep
  dsimp only
  split
  · exact timersKept_enterStep p s _ byGuard hst
  · exact timersKept_enterDrain p s hst

theorem restartStale_prcAt : ((restartStale p s).prcAt p) =
    { s.prcAt p with stale := .startAt s.now (s.prcAt p).config.ts } := by
  rw [restartStale, State.prcAt_modPrc_self]

theorem timersKept_restartStale (hst : (s.prcAt p).state.runsStale = true) : TimersKept s (restartStale p s) :=
  CycleOf.timers (p := p) (cycleOf_modPrc p _ s) fun h => by
    obtain ⟨h1, _, h3⟩ := h
    rw [restartStale_prcAt]
    exact ⟨h1, iff_of_true rfl hst, h3⟩

/-! ### The opening and the end of an episode -/

/-- A port's timers have been set as Table 6-3 says, and no other port's have changed. -/
structure TimersSet (p : Port) (s t : State) : Prop where
  own : (t.prcAt p).timersOk
  others : CycleOf p s t

theorem TimersSet.kept {p : Port} {s t : State} (h : TimersSet p s t) : TimersKept s t := h.others.timers fun _ => h.own

theorem TimersSet.after {p : Port} {s t u : State} (k : TimersSet p t u) (h : CycleOf p s t) : TimersSet p s u :=
  ⟨k.own, h.trans k.others⟩

theorem TimersSet.raise {p r : Port} {s t : State} (h : TimersSet p s t) (c : NoticeClass) (v : Nat) :
    TimersSet p s (t.raiseEpisode c r v) := ⟨h.own, ⟨h.others.same⟩⟩

/-- An opening leaves a port in RELIEF with its timers as Table 6-3 says, whatever ran before (R95). -/
theorem openEpisode_timers (o : Origin) (q : ProgNo) : TimersSet p s (openEpisode p o q s) := by
  rw [openEpisode_eq]
  have hfill := cycleKept_openingFill p (beginEpisode p o q s)
  obtain ⟨hp, hothers⟩ := enterStep_cycle p (openingFill p (beginEpisode p o q s)) 0 false
  have hraise := cycleKept_raiseEpisode p (enterStep p 0 false (openingFill p (beginEpisode p o q s))) .episodeOpen
    (q.val + mark128 (o == .manual))
  refine ⟨?_, ⟨fun r hr => ?_⟩⟩
  · rw [hfill.same p, beginEpisode_prcAt] at hp
    refine PrcPort.timersOk_of_cycle (q := { (beginEpisode p o q s).prcAt p with guard := _ })
      ((hraise.same p).trans (hp.trans (by rw [beginEpisode_prcAt]; rfl))) ?_
    rw [beginEpisode_prcAt]
    refine ⟨nofun, iff_of_true ?_ rfl, fun _ => rfl, fun hf => absurd hf (Step.guardFrom_not_frozen _ _), fun _ => rfl,
      iff_of_false nofun nofun, iff_of_false nofun nofun, nofun, fun _ => rfl⟩
    show (if (s.prcAt p).stale.active then _ else _ : Timer).active = true
    split
    · assumption
    · rfl
  · rw [hraise.same r, hothers.same r hr, hfill.same r, beginEpisode_prcAt_ne p s o q hr]

theorem timersKept_openEpisode (o : Origin) (q : ProgNo) : TimersKept s (openEpisode p o q s) :=
  (openEpisode_timers p s o q).kept

theorem timersKept_checkOpening : TimersKept s (checkOpening p s) := by
  unfold checkOpening
  split
  · exact timersKept_openEpisode p s _ _
  · exact timersKept_refl s

/-- COOLDOWN runs the cooldown timer only (Table 6-3, R103). -/
theorem toCooldown_timers (hno : (s.prcAt p).standby = none) : TimersSet p s (toCooldown p s) := by
  rw [toCooldown_eq]
  refine ⟨?_, cycleOf_modPrc p _ s⟩
  rw [State.prcAt_modPrc_self]
  split
  · exact PrcPort.enter_resting .idle (.inl rfl) hno
  · rw [PrcPort.enter_cooldown]
    refine ⟨nofun, iff_of_false nofun nofun, nofun, nofun, nofun, iff_of_false nofun nofun, iff_of_true rfl rfl, nofun, ?_⟩
    rw [hno]
    exact nofun

/-- An episode end leaves the timers as Table 6-3 says, whatever ran before (R102, R103). -/
theorem endEpisode_timers (o : EpisodeOutcome) : TimersSet p s (endEpisode p o s) := by
  unfold endEpisode afterEnd
  have hsu : CycleOf p s (closeEpisode p o s) := ⟨fun r hr => by rw [closeEpisode_prcAt_ne p s o hr]⟩
  generalize closeEpisode p o s = u at hsu
  have hclear : CycleOf p s (clearStandby p u) := hsu.trans (cycleOf_modPrc p _ u)
  have hno : ((clearStandby p u).prcAt p).standby = none := by rw [clearStandby_prcAt]
  dsimp only
  generalize clearStandby p u = v at hclear hno
  have hrest (st : PortState) (hst : st = .idle ∨ st = .disarmed) : TimersSet p s (v.enterPort p st) := by
    refine ⟨?_, hclear.trans (cycleOf_enterPort p _ _)⟩
    rw [State.prcAt_enterPort]
    exact PrcPort.enter_resting st hst hno
  have hcool : TimersSet p s (toCooldown p v) := (toCooldown_timers p v hno).after hclear
  have hopen (q : ProgNo) : TimersSet p s ((openEpisode p .manual q v).raiseEpisode .standbyStart p q.val) :=
    ((openEpisode_timers p v .manual q).after hclear).raise _ _
  split
  · split
    · exact (hrest .disarmed (.inr rfl)).raise _ _
    · split
      · exact hopen _
      · exact hcool
  · split
    · exact hopen _
    · exact hcool
  · exact hcool
  · exact hcool
  · exact hrest .disarmed (.inr rfl)
  all_goals exact hrest .idle (.inl rfl)

theorem timersKept_endEpisode (o : EpisodeOutcome) : TimersKept s (endEpisode p o s) := (endEpisode_timers p s o).kept

theorem timersKept_reportStages (l d : Nat) (hst : (s.prcAt p).state = .relief) :
    TimersKept s (reportStages p l d s) := by
  have hkept := (cycleKept_creditReport p s l d).trans (cycleKept_distribute p _)
  unfold reportStages
  generalize distribute p (creditReport p l d s) = u at hkept
  have hrelief : (u.prcAt p).state = .relief := by
    have hsame := congrArg PrcPort.state (hkept.same p)
    exact hsame.trans hst
  dsimp only
  split
  · exact hkept.timers.trans (timersKept_endStep p u false hrelief)
  · exact hkept.timers

theorem timersKept_toWatch : TimersKept s ((s.enterPort p .watch).modPrc p fun x => { x with
    qualified := false, debounce := .startAt s.now x.config.td, stale := .startAt s.now x.config.ts }) ∨
    (s.prcAt p).state ≠ .idle := by
  by_cases hst : (s.prcAt p).state = .idle
  · refine .inl (((cycleOf_enterPort p _ s).trans (cycleOf_modPrc p _ _)).timers fun h => ?_)
    have hno := h.no_standby (by rw [hst]; rfl)
    rw [State.prcAt_modPrc_self, State.prcAt_enterPort]
    simp [PrcPort.timersOk, PrcPort.enter, Timer.keptIf, Timer.active, Timer.startAt, PortState.runsStale,
      PortState.runsGuard, hno]
  · exact .inr hst

theorem timersKept_reportToPrc (l d : Nat) : TimersKept s (reportToPrc p l d s) := by
  unfold reportToPrc
  have hstale (h : (s.prcAt p).state.runsStale = true) := timersKept_restartStale p s h
  have hsame : ((restartStale p s).prcAt p).state = (s.prcAt p).state := by rw [restartStale_prcAt]
  dsimp only
  split
  · exact timersKept_refl s
  · next hst =>
    split
    · exact (timersKept_toWatch p s).resolve_right (not_not.mpr hst)
    · exact timersKept_refl s
  · next hst =>
    have hrun := hstale (by rw [hst]; rfl)
    split
    · exact hrun.trans (timersKept_rest p _ .idle (.inl rfl) (by rw [hsame, hst]; rfl))
    · exact hrun.trans (timersKept_checkOpening p _)
  · next hst => exact (hstale (by rw [hst]; rfl)).trans (timersKept_reportStages p _ l d (hsame.trans hst))
  · next hst => exact hstale (by rw [hst]; rfl)
  · next hst =>
    have hrun := hstale (by rw [hst]; rfl)
    split
    · exact hrun.trans (timersKept_endEpisode p _ .completed)
    · exact hrun
  · exact timersKept_refl s

end

/-! ### Every event -/

section
variable (p : Port) (s : State)

theorem timersKept_takeReport (seq cells : BitVec 16) (d : BitVec 32) : TimersKept s (takeReport p seq cells d s) := by
  have haccept (n : Nat) : TimersKept s (acceptReport p seq cells d n s) :=
    (timersKept_of_prc rfl : TimersKept s (s.modOev p _)).trans (timersKept_reportToPrc p _ _ _)
  unfold takeReport
  dsimp only
  split
  · exact haccept 0
  split
  · exact haccept _
  · exact timersKept_of_prc rfl

theorem timersKept_handOver (i : Slot) (was : PortState) : TimersKept s (handOver i p was s) := by
  unfold handOver
  dsimp only
  split
  · exact (timersKept_checkOpening p s).trans (cycleKept_arrive p _ i).timers
  · exact timersKept_checkOpening p s

theorem timersKept_learn (h : BitVec 32) (ing : BitVec 6) (srv : BitVec 16) : TimersKept s (learn h p ing srv s) := by
  unfold learn
  split
  · exact timersKept_refl s
  · have hcreate (i : Slot) : TimersKept s (createEntry i h p ing srv s) := timersKept_of_prc rfl
    dsimp only
    split
    · exact (hcreate _).trans (timersKept_handOver p _ _ _)
    · exact hcreate _

theorem timersKept_takeSighting (h : BitVec 32) (ing : BitVec 6) (srv : BitVec 16) :
    TimersKept s (takeSighting h p ing srv s) := by
  unfold takeSighting
  split
  · exact timersKept_of_prc rfl
  split
  · exact timersKept_learn p s h ing srv
  split
  · next i _ _ => exact (timersKept_of_prc rfl : TimersKept s (evict i s)).trans (timersKept_learn p _ h ing srv)
  · exact timersKept_of_prc rfl

theorem timersKept_takeGateSpent (g : GateNo) (ep : BitVec 4) (echo : BitVec 8) (h : BitVec 32) :
    TimersKept s (takeGateSpent g ep echo h s) := by
  refine timersKept_of_prc ?_
  unfold takeGateSpent
  split
  · dsimp only
    split
    · unfold markDry
      split
      · rfl
      split <;> rfl
    · rfl
  · rfl

theorem timersKept_takeHoldPressure (g : GateNo) (ep : BitVec 4) (h : BitVec 32) (held : BitVec 24) :
    TimersKept s (takeHoldPressure g ep h held s) := by
  unfold takeHoldPressure
  split
  · dsimp only
    split
    · have hcount (m : Gpm) : CycleKept s { s with gpm := m } := cycleKept_of_prc rfl
      exact ((hcount _).trans (cycleKept_holdPressureOn _ _ held)).timers
    · exact timersKept_of_prc rfl
  · exact timersKept_of_prc rfl

theorem timersKept_debounceEvent : TimersKept s (debounceEvent p s) := by
  unfold debounceEvent State.debounceDue
  split
  · next h =>
    simp only [Bool.and_eq_true, beq_iff_eq] at h
    refine TimersKept.trans ((cycleOf_modPrc p _ s).timers fun hq => ?_) (timersKept_checkOpening p _)
    obtain ⟨_, h2, h3, h4, h5, h6, h7, _, h9⟩ := hq
    rw [State.prcAt_modPrc_self]
    exact ⟨nofun, h2, h3, h4, h5, h6, h7, fun _ => h.1, h9⟩
  · exact timersKept_refl s

theorem timersKept_staleEvent : TimersKept s (staleEvent p s) := by
  unfold staleEvent
  split
  · dsimp only
    have hstop := cycleOf_modPrc p (fun q => { q with stale := .stopped }) s
    split
    · next h =>
      refine (hstop.trans (cycleOf_enterPort p _ _)).timers fun hq => ?_
      rw [State.prcAt_enterPort, State.prcAt_modPrc_self]
      exact PrcPort.enter_resting .idle (.inl rfl) (hq.no_standby (by rw [h]; rfl))
    · refine (TimersSet.after (endEpisode_timers p _ .stale) ?_).kept
      exact hstop.trans ((cycleKept_raiseEpisode p _ _ _).of p)
  · exact timersKept_refl s

theorem timersKept_guardEvent : TimersKept s (guardEvent p s) := by
  unfold guardEvent State.guardDue
  split
  · next h =>
    simp only [Bool.and_eq_true, beq_iff_eq] at h
    have hstop : TimersKept s (s.modPrc p fun q => { q with guard := .stopped }) :=
      (cycleOf_modPrc p _ s).timers fun hq => by
        obtain ⟨h1, h2, _, _, _, h6⟩ := hq
        rw [State.prcAt_modPrc_self]
        exact ⟨h1, h2, nofun, nofun, nofun, h6⟩
    refine (hstop.trans (cycleKept_modEpisode p _ _).timers).trans (timersKept_endStep p _ true ?_)
    rw [State.prcAt_modEpisode_self, State.prcAt_modPrc_self]
    exact h.1
  · exact timersKept_refl s

theorem timersKept_drainEvent : TimersKept s (drainEvent p s) := by
  unfold drainEvent
  split
  · refine (TimersSet.after (endEpisode_timers p _ .drainStall) ?_).kept
    exact (cycleOf_modPrc p _ s).trans ((cycleKept_raiseEpisode p _ _ _).of p)
  · exact timersKept_refl s

theorem timersKept_cooldownEvent : TimersKept s (cooldownEvent p s) := by
  unfold cooldownEvent State.cooldownDue
  split
  · next h =>
    simp only [Bool.and_eq_true, beq_iff_eq] at h
    exact timersKept_rest p s .idle (.inl rfl) (by rw [h.1]; rfl)
  · exact timersKept_refl s

theorem timersKept_teardownPort (o : EpisodeOutcome) : TimersKept s (teardownPort o s p) := by
  unfold teardownPort
  split
  · exact timersKept_endEpisode ..
  · exact timersKept_endEpisode ..
  · exact timersKept_endEpisode ..
  · next h => exact timersKept_rest p s .idle (.inl rfl) (by rw [h]; rfl)
  · next h => exact timersKept_rest p s .idle (.inl rfl) (by rw [h]; rfl)
  · exact timersKept_refl s
  · exact timersKept_refl s

theorem timersKept_fold {α : Type} {f : State → α → State} (hf : ∀ s a, TimersKept s (f s a)) (l : List α) (s : State) :
    TimersKept s (l.foldl f s) := by
  induction l generalizing s with
  | nil => exact timersKept_refl s
  | cons a l ih => exact (hf s a).trans (ih _)

theorem timersKept_clearTables : TimersKept s (clearTables s) := timersKept_of_prc rfl

theorem timersKept_freeHeldGates : TimersKept s (freeHeldGates s) :=
  (CycleKept.fold (f := fun s i => freeGateOf i s) cycleKept_freeGateOf _ _).timers

theorem timersKept_teardown (o : EpisodeOutcome) : TimersKept s (teardown o s) := by
  have hports := timersKept_fold (fun s p => timersKept_teardownPort p s o) (List.finRange 48) s
  exact (hports.trans (timersKept_freeHeldGates _)).trans (timersKept_clearTables _)

/-! ### Requests -/

theorem timersKept_setPort (b : List Byte) : TimersKept s (setPort b s).1 :=
  setPort_cases (P := TimersKept s) b (timersKept_refl s) fun p c _ => (cycleOf_modPrc p _ s).timers fun h => by
    rw [State.prcAt_modPrc_self]
    exact h

theorem timersKept_armOn : TimersKept s (armOn p s).1 := by
  unfold armOn
  dsimp only
  split
  · next h => exact timersKept_rest p s .idle (.inl rfl) (by rw [h]; rfl)
  · exact timersKept_refl s

theorem timersKept_clearStandby : TimersKept s (clearStandby p s) :=
  (cycleOf_modPrc p _ s).timers fun h => by
    obtain ⟨h1, h2, h3, h4, h5, h6, h7, h8, _⟩ := h
    rw [State.prcAt_modPrc_self]
    exact ⟨h1, h2, h3, h4, h5, h6, h7, h8, nofun⟩

theorem timersKept_disarmOn : TimersKept s (disarmOn p s).1 := by
  unfold disarmOn
  dsimp only
  split
  · exact timersKept_endEpisode ..
  · next h =>
    have hno : (s.prcAt p).state.hasEpisode = false := by simpa using h
    refine TimersKept.trans ?_ (timersKept_clearStandby p _)
    split
    · exact timersKept_refl s
    · exact timersKept_rest p s .disarmed (.inr rfl) hno

theorem timersKept_startRelief (b : List Byte) : TimersKept s (startRelief b s).1 := by
  refine withPort_rel timersKept_refl (fun p s => ?_) b s
  unfold startReliefChecked
  split
  · exact timersKept_refl s
  split
  · exact timersKept_refl s
  split
  · exact timersKept_refl s
  unfold startReliefOn
  split
  · next hep =>
    split
    · refine (cycleOf_modPrc p _ s).timers fun h => ?_
      obtain ⟨h1, h2, h3, h4, h5, h6, h7, h8, _⟩ := h
      rw [State.prcAt_modPrc_self]
      exact ⟨h1, h2, h3, h4, h5, h6, h7, h8, fun _ => hep⟩
    · exact timersKept_refl s
  · exact timersKept_openEpisode ..

theorem timersKept_stopReliefOn : TimersKept s (stopReliefOn p s).1 := by
  unfold stopReliefOn
  dsimp only
  split
  · exact timersKept_endEpisode ..
  · exact timersKept_clearStandby p s

/-- Freezing leaves no timer running, and keeps it active or stopped (R22). -/
theorem Timer.freeze_cases (now : Nat) (t : Timer) : (t.freeze now = .stopped ∧ t = .stopped) ∨
    ∃ a b, t.freeze now = .frozen a b := by
  cases t with
  | stopped => exact .inl ⟨rfl, rfl⟩
  | running a b => exact .inr ⟨_, _, rfl⟩
  | frozen a b => exact .inr ⟨_, _, rfl⟩

/-- Thawing leaves no timer frozen (R22). -/
theorem Timer.thaw_cases (now : Nat) (t : Timer) : t.thaw now = .stopped ∨ ∃ a b, t.thaw now = .running a b := by
  cases t with
  | stopped => exact .inl rfl
  | running a b => exact .inr ⟨_, _, rfl⟩
  | frozen a b => exact .inr ⟨_, _, rfl⟩

theorem timersKept_pauseOn : TimersKept s (pauseOn p s).1 := by
  unfold pauseOn
  split
  · next hst =>
    refine ((cycleOf_enterPort p _ s).trans (cycleOf_modPrc p _ _)).timers fun h => ?_
    obtain ⟨_, h2, _, _, _, _, _, _, _⟩ := h
    have hstale : (s.prcAt p).stale.active = true := h2.mpr (by rw [hst]; rfl)
    rw [State.prcAt_modPrc_self, State.prcAt_enterPort]
    refine ⟨nofun, iff_of_true hstale rfl, fun _ => rfl, fun _ => rfl, ?_, iff_of_false nofun nofun, iff_of_false nofun nofun,
      by simp [PrcPort.enter], fun _ => rfl⟩
    rintro ⟨a, b, hr⟩
    rcases Timer.freeze_cases s.now ((s.prcAt p).enter .paused).guard with ⟨hf, _⟩ | ⟨x, y, hf⟩ <;>
      cases hf.symm.trans hr
  · exact timersKept_refl s

theorem timersKept_resumeOn : TimersKept s (resumeOn p s).1 := by
  unfold resumeOn
  split
  · next hst =>
    refine TimersKept.trans ?_ ((cycleKept_refill p _).trans (cycleKept_rerateIfChanged p _ _)).timers
    refine ((cycleOf_enterPort p _ s).trans (cycleOf_modPrc p _ _)).timers fun h => ?_
    obtain ⟨_, h2, _, _, _, _, _, _, _⟩ := h
    have hstale : (s.prcAt p).stale.active = true := h2.mpr (by rw [hst]; rfl)
    rw [State.prcAt_modPrc_self, State.prcAt_enterPort]
    refine ⟨nofun, iff_of_true hstale rfl, fun _ => rfl, ?_, fun _ => rfl, iff_of_false nofun nofun, iff_of_false nofun nofun,
      by simp [PrcPort.enter], fun _ => rfl⟩
    rintro ⟨a, b, hr⟩
    rcases Timer.thaw_cases s.now ((s.prcAt p).enter .relief).guard with hf | ⟨x, y, hf⟩ <;> cases hf.symm.trans hr
  · exact timersKept_refl s

end

theorem respects_timersKept : Respects TimersKept where
  trans _ _ _ := TimersKept.trans
  aside _ _ h := (cycleKept_of_prc h.prc).timers
  teardown o s := timersKept_teardown s o
  report p seq cells d s := timersKept_takeReport p s seq cells d
  sighting h p ing srv s := timersKept_takeSighting p s h ing srv
  flowEnd h p g n s := (cycleKept_takeFlowEnd p s h g n).timers
  gateSpent g ep echo h s := timersKept_takeGateSpent s g ep echo h
  holdPressure g ep h held s := timersKept_takeHoldPressure s g ep h held
  debounce p s := timersKept_debounceEvent p s
  stale p s := timersKept_staleEvent p s
  guard p s := timersKept_guardEvent p s
  drain p s := timersKept_drainEvent p s
  cooldown p s := timersKept_cooldownEvent p s
  age i s := by
    unfold ageOut
    split
    · exact timersKept_of_prc rfl
    · exact timersKept_refl s
  setPort b s := timersKept_setPort s b
  arm p s := timersKept_armOn p s
  disarm p s := timersKept_disarmOn p s
  startRelief b s := timersKept_startRelief s b
  stopRelief p s := timersKept_stopReliefOn p s
  pause p s := timersKept_pauseOn p s
  resume p s := timersKept_resumeOn p s
  writeProgram b s := writeProgram_cases (P := TimersKept s) b (timersKept_refl s) fun _ _ _ _ _ => timersKept_of_prc rfl

end Sys2Proof.Machine

namespace Sys2Proof.Proofs

open Sys2Proof Sys2Proof.Machine

/-- Settles O11: the timers of the port an event changes are as Table 6-3 says for the state it leaves. -/
theorem portTimersKept : Obligations.PortTimersKept := fun _ _ hs h =>
  step_keeps (I := fun s => ∀ p, (s.prcAt p).timersOk) (fun _ _ h => h) (fun _ _ _ h => h) (fun _ _ => reset_timersOk)
    (fun _ h => (respects_timersKept.acts h).keeps) hs h

end Sys2Proof.Proofs
end

section
/-! SUPPORT. The books in two halves, entries with their gates and entries with their places, and what each half asks
of a change. -/

namespace Sys2Proof.Machine

/-! ### The two halves -/

/-- Entries and gates agree: the half of `booksOk` that says nothing of ports and collections (R39, R140, R141). -/
structure State.gatesOk (s : State) : Prop where
  table   : s.rtb.ok
  lists   : s.gpm.listsOk
  own     : ∀ i e, s.rtb.entry? i = some e → e.ok
  held    : ∀ i e r, s.rtb.entry? i = some e → e.gate = some r →
    (s.gpm.gate r.gate).bound = some ⟨e.hash, e.port⟩ ∧ (s.gpm.gate r.gate).epoch = r.epoch ∧
      (s.gpm.gate r.gate).mode = e.state.mode
  bound   : ∀ g k, (s.gpm.gate g).bound = some k →
    ∃ i e r, s.rtb.entry? i = some e ∧ e.hash = k.hash ∧ e.port = k.port ∧ e.gate = some r ∧ r.gate = g
  unbound : ∀ g, (s.gpm.gate g).bound = none → (s.gpm.gate g).freeOk

/-- Entries agree with the states and the collections of their ports: the other half (R123, R124). -/
structure State.placesOk (s : State) : Prop where
  occurs   : ∀ i e, s.rtb.entry? i = some e → e.state.occursIn (s.prcAt e.port).state = true
  waiting  : ∀ p, (s.aduAt p).waitQ.Nodup ∧
    ∀ i, i ∈ (s.aduAt p).waitQ ↔ ∃ e, s.rtb.entry? i = some e ∧ e.port = p ∧ e.state = .waiting
  admitted : ∀ p, (s.aduAt p).admitted.Nodup ∧
    ∀ i, i ∈ (s.aduAt p).admitted ↔ ∃ e, s.rtb.entry? i = some e ∧ e.port = p ∧ e.state = .admitted

theorem State.booksOk_iff {s : State} : s.booksOk ↔ s.gatesOk ∧ s.placesOk where
  mp h := ⟨⟨h.table, h.lists, fun i e he => (h.entries i e he).1, h.held, h.bound, h.unbound⟩,
    ⟨fun i e he => (h.entries i e he).2, h.waiting, h.admitted⟩⟩
  mpr h := ⟨h.1.table, h.1.lists, fun i e he => ⟨h.1.own i e he, h.2.occurs i e he⟩, h.1.held, h.1.bound,
    h.1.unbound, h.2.waiting, h.2.admitted⟩

/-! ### What the books read of a gate and of an entry -/

/-- A gate stands as it did, as far as the books go. -/
structure Gate.StandsAs (g h : Gate) : Prop where
  bound : g.bound = h.bound
  epoch : g.epoch = h.epoch
  mode : g.mode = h.mode
  free : h.bound = none → h.freeOk → g.freeOk

theorem Gate.StandsAs.refl (g : Gate) : g.StandsAs g := ⟨rfl, rfl, rfl, fun _ => id⟩

theorem Gate.StandsAs.trans {g h k : Gate} (a : g.StandsAs h) (b : h.StandsAs k) : g.StandsAs k :=
  ⟨a.bound.trans b.bound, a.epoch.trans b.epoch, a.mode.trans b.mode,
    fun hk hf => a.free (b.bound.trans hk) (b.free hk hf)⟩

/-- An entry without the fields that the books and the queues do not read. -/
def Entry.face (e : Entry) : Entry :=
  { e with granted := 0, lastHeld := none, lastActivity := 0, dry := e.dry.map fun _ => true }

/-- Two entries that the books and the queues do not tell apart. -/
structure Entry.SameFace (e f : Entry) : Prop where
  hash : e.hash = f.hash
  port : e.port = f.port
  eligible : e.eligible = f.eligible
  band : e.band = f.band
  state : e.state = f.state
  gate : e.gate = f.gate
  dry : e.dry.isSome = f.dry.isSome
  overdraft : e.overdraft = f.overdraft

theorem Entry.sameFace {e f : Entry} (h : e.face = f.face) : e.SameFace f where
  hash := (congrArg Entry.hash h :)
  port := (congrArg Entry.port h :)
  eligible := (congrArg Entry.eligible h :)
  band := (congrArg Entry.band h :)
  state := (congrArg Entry.state h :)
  gate := (congrArg Entry.gate h :)
  dry := by simpa [Entry.face] using congrArg (fun x => x.dry.isSome) h
  overdraft := (congrArg Entry.overdraft h :)

theorem Entry.SameFace.ok {e f : Entry} (h : e.SameFace f) (hf : f.ok) : e.ok := by
  unfold Entry.ok at hf ⊢
  rw [h.gate, h.state, h.dry, h.overdraft, h.eligible]
  exact hf

theorem face_of_some {a b : Option Entry} {e : Entry} (h : a.map Entry.face = b.map Entry.face) (ha : a = some e) :
    ∃ f, b = some f ∧ f.face = e.face := by
  rw [ha] at h
  obtain ⟨f, hf, hff⟩ := Option.map_eq_some_iff.mp h.symm
  exact ⟨f, hf, hff⟩

/-! ### Changes that the books do not read -/

/-- Between `s` and `t` nothing has changed that the books read. -/
structure Alike (s t : State) : Prop where
  faces : ∀ i, (t.rtb.entry? i).map Entry.face = (s.rtb.entry? i).map Entry.face
  arrival : t.rtb.arrival = s.rtb.arrival
  table : s.rtb.ok → t.rtb.ok
  lists : s.gpm.listsOk → t.gpm.listsOk
  gates : s.gatesOk → ∀ g, (t.gpm.gate g).StandsAs (s.gpm.gate g)
  ports : ∀ p, (t.prcAt p).state = (s.prcAt p).state ∧
    (t.prcAt p).episode.program = (s.prcAt p).episode.program ∧
    (t.prcAt p).episode.stepIndex = (s.prcAt p).episode.stepIndex
  adu : ∀ p, t.aduAt p = s.aduAt p
  pgs : t.pgs = s.pgs

namespace Alike

variable {s t u : State}

theorem refl (s : State) : Alike s s :=
  ⟨fun _ => rfl, rfl, id, id, fun _ _ => .refl _, fun _ => ⟨rfl, rfl, rfl⟩, fun _ => rfl, rfl⟩

theorem entry (h : Alike s t) {i : Slot} {e : Entry} (he : s.rtb.entry? i = some e) :
    ∃ f, t.rtb.entry? i = some f ∧ f.SameFace e := by
  obtain ⟨f, hf, hface⟩ := face_of_some (h.faces i).symm he
  exact ⟨f, hf, Entry.sameFace hface⟩

theorem entry_before (h : Alike s t) {i : Slot} {f : Entry} (hf : t.rtb.entry? i = some f) :
    ∃ e, s.rtb.entry? i = some e ∧ f.SameFace e := by
  obtain ⟨e, he, hface⟩ := face_of_some (h.faces i) hf
  exact ⟨e, he, Entry.sameFace hface.symm⟩

theorem gatesOk (h : Alike s t) (hs : s.gatesOk) : t.gatesOk where
  table := h.table hs.table
  lists := h.lists hs.lists
  own i f hf := by
    obtain ⟨e, he, hface⟩ := h.entry_before hf
    exact hface.ok (hs.own i e he)
  held i f r hf hr := by
    obtain ⟨e, he, hface⟩ := h.entry_before hf
    obtain ⟨hbound, hepoch, hmode⟩ := hs.held i e r he (hface.gate ▸ hr)
    rw [hface.hash, hface.port, hface.state]
    have hg := h.gates hs r.gate
    exact ⟨hg.bound.trans hbound, hg.epoch.trans hepoch, hg.mode.trans hmode⟩
  bound g k hk := by
    obtain ⟨i, e, r, he, hhash, hport, hgate, hr⟩ := hs.bound g k ((h.gates hs g).bound ▸ hk)
    obtain ⟨f, hf, hface⟩ := h.entry he
    exact ⟨i, f, r, hf, hface.hash.trans hhash, hface.port.trans hport, hface.gate.trans hgate, hr⟩
  unbound g hg := by
    have hstand := h.gates hs g
    have hfree := hstand.bound ▸ hg
    exact hstand.free hfree (hs.unbound g hfree)

theorem trans (h : Alike s t) (k : Alike t u) : Alike s u where
  faces i := (k.faces i).trans (h.faces i)
  arrival := k.arrival.trans h.arrival
  table := k.table ∘ h.table
  lists := k.lists ∘ h.lists
  gates hs g := (k.gates (h.gatesOk hs) g).trans (h.gates hs g)
  ports p := by
    obtain ⟨hstate, hprogram, hindex⟩ := h.ports p
    obtain ⟨kstate, kprogram, kindex⟩ := k.ports p
    exact ⟨kstate.trans hstate, kprogram.trans hprogram, kindex.trans hindex⟩
  adu p := (k.adu p).trans (h.adu p)
  pgs := k.pgs.trans h.pgs

theorem fold {α : Type} {f : State → α → State} (hf : ∀ s a, Alike s (f s a)) (l : List α) (s : State) :
    Alike s (l.foldl f s) := by
  induction l generalizing s with
  | nil => exact refl s
  | cons a l ih => exact (hf s a).trans (ih _)

theorem member (h : Alike s t) (p : Port) (st : EntryState) (i : Slot) :
    (∃ e, t.rtb.entry? i = some e ∧ e.port = p ∧ e.state = st) ↔
      ∃ e, s.rtb.entry? i = some e ∧ e.port = p ∧ e.state = st := by
  constructor
  · rintro ⟨f, hf, hp, hst⟩
    obtain ⟨e, he, hface⟩ := h.entry_before hf
    exact ⟨e, he, hface.port ▸ hp, hface.state ▸ hst⟩
  · rintro ⟨e, he, hp, hst⟩
    obtain ⟨f, hf, hface⟩ := h.entry he
    exact ⟨f, hf, hface.port.trans hp, hface.state.trans hst⟩

theorem placesOk (h : Alike s t) (hs : s.placesOk) : t.placesOk where
  occurs i f hf := by
    obtain ⟨e, he, hface⟩ := h.entry_before hf
    obtain ⟨hstate, _⟩ := h.ports e.port
    rw [hface.state, hface.port, hstate]
    exact hs.occurs i e he
  waiting p := by
    obtain ⟨hnodup, hmem⟩ := hs.waiting p
    rw [h.adu p]
    exact ⟨hnodup, fun i => (hmem i).trans (h.member p .waiting i).symm⟩
  admitted p := by
    obtain ⟨hnodup, hmem⟩ := hs.admitted p
    rw [h.adu p]
    exact ⟨hnodup, fun i => (hmem i).trans (h.member p .admitted i).symm⟩

theorem booksOk (h : Alike s t) (hs : s.booksOk) : t.booksOk :=
  State.booksOk_iff.mpr ((State.booksOk_iff.mp hs).imp h.gatesOk h.placesOk)

end Alike

/-! ### One entry moves -/

/-- The gate that an entry, if there is one, holds. -/
def heldGate (o : Option Entry) : Option GateNo := o.bind fun e => e.gate.map (·.gate)

/-- The entry in slot `i` has become `o`, or has gone, and only the gates that it held or holds may have changed. -/
structure EntryMoves (i : Slot) (e : Entry) (o : Option Entry) (s t : State) : Prop where
  was : s.rtb.entry? i = some e
  now : t.rtb.entry? i = o
  others : ∀ j, j ≠ i → t.rtb.entry? j = s.rtb.entry? j
  table : t.rtb.ok
  lists : t.gpm.listsOk
  own : ∀ f, o = some f → f.hash = e.hash ∧ f.port = e.port ∧ f.ok
  gates : ∀ g, heldGate (some e) ≠ some g → heldGate o ≠ some g → (t.gpm.gate g).StandsAs (s.gpm.gate g)
  takes : ∀ f r, o = some f → f.gate = some r →
    ((t.gpm.gate r.gate).bound = some ⟨f.hash, f.port⟩ ∧ (t.gpm.gate r.gate).epoch = r.epoch ∧
      (t.gpm.gate r.gate).mode = f.state.mode) ∧
    (heldGate (some e) = some r.gate ∨ (s.gpm.gate r.gate).bound = none)
  frees : ∀ g, heldGate (some e) = some g → heldGate o ≠ some g →
    (t.gpm.gate g).bound = none ∧ (t.gpm.gate g).freeOk

theorem heldGate_eq_some {o : Option Entry} {g : GateNo} (h : heldGate o = some g) :
    ∃ e r, o = some e ∧ e.gate = some r ∧ r.gate = g := by
  obtain ⟨e, he, hg⟩ := Option.bind_eq_some_iff.mp h
  obtain ⟨r, hr, hrg⟩ := Option.map_eq_some_iff.mp hg
  exact ⟨e, r, he, hr, hrg⟩

theorem heldGate_of_gate {e : Entry} {r : GateRef} (h : e.gate = some r) : heldGate (some e) = some r.gate := by
  simp [heldGate, h]

theorem heldGate_of_no_gate {e : Entry} (h : e.gate = none) : heldGate (some e) = none := by simp [heldGate, h]

theorem gateOf_eq_heldGate (s : State) (i : Slot) : s.gateOf i = heldGate (s.rtb.entry? i) := rfl

theorem State.gatesOk.slot_of_gate {s : State} (h : s.gatesOk) {i j : Slot} {g : GateNo}
    (hi : heldGate (s.rtb.entry? i) = some g) (hj : heldGate (s.rtb.entry? j) = some g) : i = j := by
  obtain ⟨e, r, he, hr, hrg⟩ := heldGate_eq_some hi
  obtain ⟨f, q, hf, hq, hqg⟩ := heldGate_eq_some hj
  obtain ⟨hbe, _⟩ := h.held i e r he hr
  obtain ⟨hbf, _⟩ := h.held j f q hf hq
  rw [hrg] at hbe
  rw [hqg, hbe] at hbf
  obtain ⟨hhash, hport⟩ := Key.mk.inj (Option.some.inj hbf)
  exact h.table.slot_of_key he hf hhash hport

theorem State.gatesOk.gate_bound {s : State} (h : s.gatesOk) {i : Slot} {g : GateNo}
    (hi : heldGate (s.rtb.entry? i) = some g) : (s.gpm.gate g).bound ≠ none := by
  obtain ⟨e, r, he, hr, hrg⟩ := heldGate_eq_some hi
  obtain ⟨hbe, _⟩ := h.held i e r he hr
  rw [← hrg, hbe]
  nofun

theorem EntryMoves.gatesOk {i : Slot} {e : Entry} {o : Option Entry} {s t : State} (m : EntryMoves i e o s t)
    (h : s.gatesOk) : t.gatesOk where
  table := m.table
  lists := m.lists
  own j f hf := by
    by_cases hj : j = i
    · subst hj
      obtain ⟨_, _, hok⟩ := m.own f (m.now ▸ hf)
      exact hok
    · exact h.own j f (m.others j hj ▸ hf)
  held j f r hf hr := by
    by_cases hj : j = i
    · subst hj
      obtain ⟨hheld, _⟩ := m.takes f r (m.now ▸ hf) hr
      exact hheld
    · rw [m.others j hj] at hf
      have hgate : heldGate (s.rtb.entry? j) = some r.gate := hf ▸ heldGate_of_gate hr
      have hold : heldGate (some e) ≠ some r.gate := fun hi => hj (h.slot_of_gate hgate (m.was ▸ hi))
      have hnew : heldGate o ≠ some r.gate := fun ho => by
        obtain ⟨x, q, hx, hq, hqr⟩ := heldGate_eq_some ho
        obtain ⟨_, htook⟩ := m.takes x q hx hq
        rw [hqr] at htook
        exact htook.elim hold (h.gate_bound hgate)
      obtain ⟨hbound, hepoch, hmode⟩ := h.held j f r hf hr
      have hstand := m.gates r.gate hold hnew
      exact ⟨hstand.bound.trans hbound, hstand.epoch.trans hepoch, hstand.mode.trans hmode⟩
  bound g k hk := by
    by_cases hnew : heldGate o = some g
    · obtain ⟨f, r, hf, hr, rfl⟩ := heldGate_eq_some hnew
      obtain ⟨⟨hbound, _⟩, _⟩ := m.takes f r hf hr
      obtain rfl := Option.some.inj (hbound.symm.trans hk)
      exact ⟨i, f, r, m.now.trans hf, rfl, rfl, hr, rfl⟩
    · by_cases hold : heldGate (some e) = some g
      · obtain ⟨hnone, _⟩ := m.frees g hold hnew
        exact nomatch hnone.symm.trans hk
      · obtain ⟨j, f, r, hf, hhash, hport, hr, hrg⟩ := h.bound g k ((m.gates g hold hnew).bound ▸ hk)
        have hj : j ≠ i := by
          rintro rfl
          obtain rfl := Option.some.inj (m.was.symm.trans hf)
          exact hold (hrg ▸ heldGate_of_gate hr)
        exact ⟨j, f, r, (m.others j hj).trans hf, hhash, hport, hr, hrg⟩
  unbound g hg := by
    by_cases hnew : heldGate o = some g
    · obtain ⟨f, r, hf, hr, rfl⟩ := heldGate_eq_some hnew
      obtain ⟨⟨hbound, _⟩, _⟩ := m.takes f r hf hr
      exact nomatch hg.symm.trans hbound
    · by_cases hold : heldGate (some e) = some g
      · obtain ⟨_, hfree⟩ := m.frees g hold hnew
        exact hfree
      · have hstand := m.gates g hold hnew
        have hfree := hstand.bound ▸ hg
        exact hstand.free hfree (h.unbound g hfree)

/-- The places follow the entry that has moved: it occurs in its port's state, and stands in the collection of its
state alone. -/
structure PlaceMoves (p : Port) (i : Slot) (o : Option Entry) (s t : State) : Prop where
  states : ∀ q, (t.prcAt q).state = (s.prcAt q).state
  adu : ∀ q, q ≠ p → t.aduAt q = s.aduAt q
  occurs : ∀ f, o = some f → f.port = p ∧ f.state.occursIn (s.prcAt p).state = true
  waiting : (t.aduAt p).waitQ.Nodup ∧ ∀ j, j ∈ (t.aduAt p).waitQ ↔
    if j = i then ∃ f, o = some f ∧ f.state = .waiting else j ∈ (s.aduAt p).waitQ
  admitted : (t.aduAt p).admitted.Nodup ∧ ∀ j, j ∈ (t.aduAt p).admitted ↔
    if j = i then ∃ f, o = some f ∧ f.state = .admitted else j ∈ (s.aduAt p).admitted

section
variable {p : Port} {i : Slot} {e : Entry} {o : Option Entry} {s t : State}

/-- The members of a port's collection, once the entry of one port has moved. -/
theorem member_of_move (was : s.rtb.entry? i = some e) (now : t.rtb.entry? i = o)
    (others : ∀ j, j ≠ i → t.rtb.entry? j = s.rtb.entry? j) (hp : e.port = p) (hport : ∀ f, o = some f → f.port = p)
    {q : Port} {st : EntryState} {before after : List Slot}
    (hbefore : ∀ j, j ∈ before ↔ ∃ e, s.rtb.entry? j = some e ∧ e.port = q ∧ e.state = st)
    (hafter : ∀ j, j ∈ after ↔ if q = p ∧ j = i then ∃ f, o = some f ∧ f.state = st else j ∈ before) (j : Slot) :
    j ∈ after ↔ ∃ e, t.rtb.entry? j = some e ∧ e.port = q ∧ e.state = st := by
  rw [hafter]
  by_cases hj : j = i
  · subst hj
    rw [now]
    by_cases hq : q = p
    · rw [if_pos ⟨hq, rfl⟩, hq]
      exact ⟨fun ⟨f, hf, hst⟩ => ⟨f, hf, hport f hf, hst⟩, fun ⟨f, hf, _, hst⟩ => ⟨f, hf, hst⟩⟩
    · rw [if_neg fun h => hq h.1, hbefore, was]
      constructor
      · rintro ⟨x, hx, hxq, _⟩
        obtain rfl := Option.some.inj hx
        exact absurd (hxq.symm.trans hp) hq
      · rintro ⟨f, hf, hfq, _⟩
        exact absurd (hfq.symm.trans (hport f hf)) hq
  · rw [if_neg fun h => hj h.2, hbefore, others j hj]

theorem PlaceMoves.placesOk (m : PlaceMoves p i o s t) (g : EntryMoves i e o s t) (hp : e.port = p)
    (h : s.placesOk) : t.placesOk where
  occurs j f hf := by
    by_cases hj : j = i
    · subst hj
      obtain ⟨hport, hocc⟩ := m.occurs f (g.now ▸ hf)
      rw [m.states, hport]
      exact hocc
    · rw [m.states]
      exact h.occurs j f (g.others j hj ▸ hf)
  waiting q := by
    obtain ⟨hnodup, hmem⟩ := h.waiting q
    have hport f (hf : o = some f) : f.port = p := (m.occurs f hf).1
    by_cases hq : q = p
    · subst hq
      exact ⟨m.waiting.1, member_of_move g.was g.now g.others hp hport hmem (by simpa using m.waiting.2)⟩
    · rw [m.adu q hq]
      exact ⟨hnodup, member_of_move g.was g.now g.others hp hport hmem (by simp [hq])⟩
  admitted q := by
    obtain ⟨hnodup, hmem⟩ := h.admitted q
    have hport f (hf : o = some f) : f.port = p := (m.occurs f hf).1
    by_cases hq : q = p
    · subst hq
      exact ⟨m.admitted.1, member_of_move g.was g.now g.others hp hport hmem (by simpa using m.admitted.2)⟩
    · rw [m.adu q hq]
      exact ⟨hnodup, member_of_move g.was g.now g.others hp hport hmem (by simp [hq])⟩

theorem booksOk_of_moves (h : s.booksOk) (g : EntryMoves i e o s t) (m : PlaceMoves p i o s t) (hp : e.port = p) :
    t.booksOk := by
  obtain ⟨hgates, hplaces⟩ := State.booksOk_iff.mp h
  exact State.booksOk_iff.mpr ⟨g.gatesOk hgates, m.placesOk g hp hplaces⟩

end

end Sys2Proof.Machine
end

section
/-! SUPPORT. The wait queue and the admitted set of one port: their order by the arrival list, what keeps them, and the
relation of changes that keep books and queues. -/

namespace Sys2Proof.Machine

/-! ### Band and arrival order (R123) -/

/-- The entries of a port's arrival list, band 0 first. -/
def State.bandArrival (s : State) (p : Port) : List Slot :=
  (List.range 4).flatMap fun b => (s.rtb.arrival[p]).filter fun i => s.bandOf i == b

/-- The eligible entry of a slot stands in this state. -/
def State.standsIn (s : State) (st : EntryState) (i : Slot) : Bool :=
  match s.rtb.entry? i with
  | some e => e.eligible && e.state == st
  | none => false

theorem State.standsIn_iff {s : State} {st : EntryState} {i : Slot} :
    s.standsIn st i = true ↔ ∃ e, s.rtb.entry? i = some e ∧ e.eligible = true ∧ e.state = st := by
  unfold State.standsIn
  cases s.rtb.entry? i <;> simp

theorem State.bandOf_of_entry {s : State} {i : Slot} {e : Entry} (he : s.rtb.entry? i = some e) :
    s.bandOf i = e.band.val := by
  unfold State.bandOf; rw [he]

theorem State.bandOf_lt (s : State) (i : Slot) : s.bandOf i < 4 := by
  unfold State.bandOf
  split <;> omega

theorem inBandOrder_eq (s : State) (p : Port) (st : EntryState) :
    s.inBandOrder p st = (s.bandArrival p).filter (s.standsIn st) := by
  unfold State.inBandOrder State.bandArrival
  rw [List.filter_flatMap]
  refine congrArg (fun f => List.flatMap f (List.range 4)) (funext fun b => ?_)
  rw [List.filter_filter]
  refine List.filter_congr fun i _ => ?_
  unfold State.standsIn State.bandOf
  cases s.rtb.entry? i <;> rfl

theorem State.mem_bandArrival {s : State} {p : Port} {i : Slot} : i ∈ s.bandArrival p ↔ i ∈ s.rtb.arrival[p] := by
  simp [State.bandArrival, State.bandOf_lt]

theorem State.bandArrival_nodup {s : State} {p : Port} (h : (s.rtb.arrival[p]).Nodup) : (s.bandArrival p).Nodup := by
  refine List.nodup_flatMap.mpr ⟨fun b _ => h.filter _, ?_⟩
  refine List.pairwise_lt_range.imp fun {a b} hab i hi hj => ?_
  simp only [List.mem_filter, beq_iff_eq] at hi hj
  omega

theorem State.bandArrival_pairwise (s : State) (p : Port) :
    (s.bandArrival p).Pairwise fun j k => s.bandOf j ≤ s.bandOf k := by
  refine List.pairwise_flatMap.mpr ⟨fun b _ => List.pairwise_of_forall_mem_list fun j hj k hk => ?_, ?_⟩
  · simp only [List.mem_filter, beq_iff_eq] at hj hk
    omega
  · refine List.pairwise_lt_range.imp fun {a b} hab j hj k hk => ?_
    simp only [List.mem_filter, beq_iff_eq] at hj hk
    omega

/-- A sublist is told by its members. -/
theorem sublist_eq_filter {α : Type} {l q : List α} {P : α → Bool} (hq : q.Sublist l) (hl : l.Nodup)
    (hmem : ∀ i, i ∈ q ↔ i ∈ l ∧ P i = true) : q = l.filter P := by
  have hsub : q.Sublist (l.filter P) := by
    have := hq.filter P
    rwa [List.filter_eq_self.mpr fun i hi => ((hmem i).mp hi).2] at this
  refine hsub.eq_of_length_le ((hl.filter P).subperm fun i hi => ?_).length_le
  exact (hmem i).mpr (List.mem_filter.mp hi)

section
variable {s : State} (h : s.booksOk) (p : Port)
include h

theorem State.booksOk.bandArrival_nodup : (s.bandArrival p).Nodup := by
  obtain ⟨hnodup, _⟩ := h.table.2 p
  exact State.bandArrival_nodup hnodup

theorem State.booksOk.mem_bandArrival {i : Slot} :
    i ∈ s.bandArrival p ↔ ∃ e, s.rtb.entry? i = some e ∧ e.port = p := by
  obtain ⟨_, hmem⟩ := h.table.2 p
  rw [State.mem_bandArrival, hmem]

theorem State.booksOk.eligible {i : Slot} {e : Entry} (he : s.rtb.entry? i = some e) (hst : e.state ≠ .seen) :
    e.eligible = true := by
  obtain ⟨⟨_, _, _, hel⟩, _⟩ := h.entries i e he
  exact hel hst

/-- The wait queue is in band and arrival order as soon as it follows the arrival list (R123). -/
theorem State.booksOk.order_iff :
    (s.aduAt p).waitQ = s.inBandOrder p .waiting ↔ (s.aduAt p).waitQ.Sublist (s.bandArrival p) := by
  rw [inBandOrder_eq]
  refine ⟨fun hq => hq ▸ List.filter_sublist, fun hq => sublist_eq_filter hq (h.bandArrival_nodup p) fun i => ?_⟩
  obtain ⟨_, hmem⟩ := h.waiting p
  rw [hmem, h.mem_bandArrival, State.standsIn_iff]
  constructor
  · rintro ⟨e, he, hp, hst⟩
    exact ⟨⟨e, he, hp⟩, e, he, h.eligible he (by rw [hst]; nofun), hst⟩
  · rintro ⟨⟨e, he, hp⟩, f, hf, _, hst⟩
    obtain rfl := Option.some.inj (he.symm.trans hf)
    exact ⟨e, he, hp, hst⟩

end

/-! ### The queues of one port -/

/-- The bounds and the order of one port's collections, but for the fill of the admitted set. -/
structure State.queueOk (s : State) (p : Port) : Prop where
  order : (s.aduAt p).waitQ.Sublist (s.bandArrival p)
  length : (s.aduAt p).waitQ.length ≤ 256
  marks : s.overdraftCount p ≤ 8
  admitted : s.admittedCount p ≤ 64 + s.overdraftCount p

/-- In RELIEF the width is reached or none waits (R132). -/
def State.filledOk (s : State) (p : Port) : Prop := (s.prcAt p).state = .relief →
  (s.currentStep p).width ≤ s.admittedCount p ∨ (s.aduAt p).waitQ = []

theorem State.booksOk.queuesOk_iff {s : State} (h : s.booksOk) :
    s.queuesOk ↔ ∀ p, s.queueOk p ∧ s.filledOk p where
  mp hq p := by
    obtain ⟨_, hmarks, hadmitted⟩ := hq.admitted p
    exact ⟨⟨(h.order_iff p).mp (hq.order p), hq.waiting p, hmarks, hadmitted⟩, hq.filled p⟩
  mpr hq := {
    order := fun p => (h.order_iff p).mpr (hq p).1.order
    waiting := fun p => (hq p).1.length
    admitted := fun p => by
      have hmarks := (hq p).1.marks
      have hadmitted := (hq p).1.admitted
      exact ⟨by omega, hmarks, hadmitted⟩
    filled := fun p => (hq p).2 }

/-! ### A port that stands as it did -/

/-- Between `s` and `t` nothing has changed that the queues of port `q` read. -/
structure PortSame (q : Port) (s t : State) : Prop where
  state : (t.prcAt q).state = (s.prcAt q).state
  program : (t.prcAt q).episode.program = (s.prcAt q).episode.program
  index : (t.prcAt q).episode.stepIndex = (s.prcAt q).episode.stepIndex
  pgs : t.pgs = s.pgs
  adu : t.aduAt q = s.aduAt q
  arrival : t.rtb.arrival[q] = s.rtb.arrival[q]
  entries : ∀ i e, s.rtb.entry? i = some e → e.port = q → ∃ f, t.rtb.entry? i = some f ∧ f.SameFace e

theorem Entry.SameFace.refl (e : Entry) : e.SameFace e := ⟨rfl, rfl, rfl, rfl, rfl, rfl, rfl, rfl⟩

theorem Entry.SameFace.trans {e f g : Entry} (h : e.SameFace f) (k : f.SameFace g) : e.SameFace g :=
  ⟨h.hash.trans k.hash, h.port.trans k.port, h.eligible.trans k.eligible, h.band.trans k.band, h.state.trans k.state,
    h.gate.trans k.gate, h.dry.trans k.dry, h.overdraft.trans k.overdraft⟩

namespace PortSame

variable {q : Port} {s t u : State}

theorem refl (q : Port) (s : State) : PortSame q s s :=
  ⟨rfl, rfl, rfl, rfl, rfl, rfl, fun _ e he _ => ⟨e, he, .refl e⟩⟩

theorem trans (h : PortSame q s t) (k : PortSame q t u) : PortSame q s u where
  state := k.state.trans h.state
  program := k.program.trans h.program
  index := k.index.trans h.index
  pgs := k.pgs.trans h.pgs
  adu := k.adu.trans h.adu
  arrival := k.arrival.trans h.arrival
  entries i e he hq := by
    obtain ⟨f, hf, hface⟩ := h.entries i e he hq
    obtain ⟨g, hg, hgface⟩ := k.entries i f hf (hface.port.trans hq)
    exact ⟨g, hg, hgface.trans hface⟩

theorem currentStep (h : PortSame q s t) : t.currentStep q = s.currentStep q := by
  unfold State.currentStep
  simp only [h.pgs, h.program, h.index]

theorem bandArrival (h : PortSame q s t) (hs : s.booksOk) : t.bandArrival q = s.bandArrival q := by
  unfold State.bandArrival
  rw [h.arrival]
  refine congrArg (fun f => List.flatMap f (List.range 4)) (funext fun b => List.filter_congr fun i hi => ?_)
  obtain ⟨_, hmem⟩ := hs.table.2 q
  obtain ⟨e, he, hp⟩ := (hmem i).mp hi
  obtain ⟨f, hf, hface⟩ := h.entries i e he hp
  rw [State.bandOf_of_entry he, State.bandOf_of_entry hf, hface.band]

theorem admittedCount (h : PortSame q s t) : t.admittedCount q = s.admittedCount q := by
  unfold State.admittedCount; rw [h.adu]

theorem overdraftCount (h : PortSame q s t) (hs : s.booksOk) : t.overdraftCount q = s.overdraftCount q := by
  unfold State.overdraftCount
  rw [h.adu]
  refine List.countP_congr fun i hi => ?_
  obtain ⟨_, hmem⟩ := hs.admitted q
  obtain ⟨e, he, hp, _⟩ := (hmem i).mp hi
  obtain ⟨f, hf, hface⟩ := h.entries i e he hp
  unfold State.marked
  rw [he, hf]
  show (f.overdraft == _) = true ↔ _
  rw [hface.overdraft]

theorem queueOk (h : PortSame q s t) (hs : s.booksOk) (hq : s.queueOk q) : t.queueOk q where
  order := by rw [h.adu, h.bandArrival hs]; exact hq.order
  length := by rw [h.adu]; exact hq.length
  marks := by rw [h.overdraftCount hs]; exact hq.marks
  admitted := by rw [h.overdraftCount hs, h.admittedCount]; exact hq.admitted

theorem filledOk (h : PortSame q s t) (hq : s.filledOk q) : t.filledOk q := by
  unfold State.filledOk
  rw [h.state, h.currentStep, h.admittedCount, h.adu]
  exact hq

end PortSame

theorem Alike.portSame {s t : State} (h : Alike s t) (q : Port) : PortSame q s t where
  state := (h.ports q).1
  program := (h.ports q).2.1
  index := (h.ports q).2.2
  pgs := h.pgs
  adu := h.adu q
  arrival := by rw [h.arrival]
  entries _ _ he _ := h.entry he

theorem AtEntry.portSame {p q : Port} {i : Slot} {s t : State} (h : AtEntry p i s t) (hq : q ≠ p)
    (hi : ∀ e, s.rtb.entry? i = some e → e.port = p) : PortSame q s t where
  state := by rw [(h.others q hq).1]
  program := by rw [(h.others q hq).1]
  index := by rw [(h.others q hq).1]
  pgs := h.quiet.pgs
  adu := (h.others q hq).2
  arrival := by rw [h.quiet.arrival]
  entries j e he hp := by
    have hj : j ≠ i := by
      rintro rfl
      exact hq (hp.symm.trans (hi e he))
    exact ⟨e, (h.entries j hj).trans he, .refl e⟩

/-! ### Changes that keep books and queues -/

/-- Between `s` and `t` the books, and with legal programs the queues, have been kept. -/
structure Kept (s t : State) : Prop where
  books : s.booksOk → t.booksOk
  pgs : s.pgs.ok → t.pgs.ok
  queues : s.booksOk → s.pgs.ok → s.queuesOk → t.queuesOk

namespace Kept

variable {s t u : State}

theorem refl (s : State) : Kept s s := ⟨id, id, fun _ _ => id⟩

theorem trans (h : Kept s t) (k : Kept t u) : Kept s u where
  books := k.books ∘ h.books
  pgs := k.pgs ∘ h.pgs
  queues hb hp hq := k.queues (h.books hb) (h.pgs hp) (h.queues hb hp hq)

theorem fold {α : Type} {f : State → α → State} (hf : ∀ s a, Kept s (f s a)) (l : List α) (s : State) :
    Kept s (l.foldl f s) := by
  induction l generalizing s with
  | nil => exact refl s
  | cons a l ih => exact (hf s a).trans (ih _)

/-- A change of one port, whose own queues are looked at. -/
theorem of_port (p : Port) (hpgs : t.pgs = s.pgs) (hbooks : s.booksOk → t.booksOk)
    (hothers : s.booksOk → ∀ q, q ≠ p → PortSame q s t)
    (hown : s.booksOk → s.pgs.ok → s.queueOk p → s.filledOk p → t.queueOk p ∧ t.filledOk p) : Kept s t where
  books := hbooks
  pgs := by rw [hpgs]; exact id
  queues hb hp hq := by
    have hports := hb.queuesOk_iff.mp hq
    refine (hbooks hb).queuesOk_iff.mpr fun q => ?_
    by_cases hqp : q = p
    · obtain ⟨hqueue, hfilled⟩ := hports p
      exact hqp ▸ hown hb hp hqueue hfilled
    · obtain ⟨hqueue, hfilled⟩ := hports q
      have hsame := hothers hb q hqp
      exact ⟨hsame.queueOk hb hqueue, hsame.filledOk hfilled⟩

end Kept

theorem kept_of_alike {s t : State} (h : s.booksOk → Alike s t) (hpgs : t.pgs = s.pgs) : Kept s t :=
  .of_port 0 hpgs (fun hb => (h hb).booksOk hb) (fun hb q _ => (h hb).portSame q)
    fun hb _ hq hf => ⟨((h hb).portSame 0).queueOk hb hq, ((h hb).portSame 0).filledOk hf⟩

theorem Alike.kept {s t : State} (h : Alike s t) : Kept s t := kept_of_alike (fun _ => h) h.pgs

end Sys2Proof.Machine
end

section
/-! SUPPORT. What the books and the queues do not read: counters, credit, occupancy, timers, divisors and grants. -/

namespace Sys2Proof.Machine

/-- Only blocks and fields that the books do not read differ. -/
theorem alike_of_same {s t : State} (htable : t.rtb.table = s.rtb.table) (harrival : t.rtb.arrival = s.rtb.arrival)
    (hgates : t.gpm.gates = s.gpm.gates) (hlists : s.gpm.listsOk → t.gpm.listsOk)
    (hports : ∀ p, (t.prcAt p).state = (s.prcAt p).state ∧
      (t.prcAt p).episode.program = (s.prcAt p).episode.program ∧
      (t.prcAt p).episode.stepIndex = (s.prcAt p).episode.stepIndex)
    (hadu : t.adu.port = s.adu.port) (hpgs : t.pgs = s.pgs) : Alike s t where
  faces i := by simp only [Rtb.entry?, htable]
  arrival := harrival
  table := by unfold Rtb.ok Rtb.entry?; rw [htable, harrival]; exact id
  lists := hlists
  gates _ g := by unfold Gpm.gate; rw [hgates]; exact .refl _
  ports := hports
  adu p := by unfold State.aduAt; rw [hadu]
  pgs := hpgs

theorem Aside.alike {s t : State} (h : Aside s t) : Alike s t where
  faces i := by simp only [Rtb.entry?, h.table]
  arrival := h.arrival
  table := by unfold Rtb.ok Rtb.entry?; rw [h.table, h.arrival]; exact id
  lists := h.lists
  gates _ g := by
    obtain ⟨hepoch, hbound, hmode, hdiv, hres⟩ := h.gates g
    exact ⟨hbound, hepoch, hmode, fun _ ⟨fmode, fdiv, fres, fadd⟩ =>
      ⟨hmode.trans fmode, hdiv.trans fdiv, hres.trans fres, h.pendingAdd g fadd⟩⟩
  ports p := by unfold State.prcAt; rw [h.prc]; exact ⟨rfl, rfl, rfl⟩
  adu p := by unfold State.aduAt; rw [h.adu]
  pgs := h.pgs

section
variable (s : State) (p : Port)

theorem alike_modPrc (f : PrcPort → PrcPort) (hstate : (f (s.prcAt p)).state = (s.prcAt p).state)
    (hprogram : (f (s.prcAt p)).episode.program = (s.prcAt p).episode.program)
    (hindex : (f (s.prcAt p)).episode.stepIndex = (s.prcAt p).episode.stepIndex) : Alike s (s.modPrc p f) :=
  alike_of_same rfl rfl rfl id (fun q => by
    rw [State.prcAt_modPrc]
    split
    · next e => rw [e]; exact ⟨hstate, hprogram, hindex⟩
    · exact ⟨rfl, rfl, rfl⟩) rfl rfl

theorem alike_modEpisode (f : Episode → Episode)
    (hf : ∀ e, (f e).program = e.program ∧ (f e).stepIndex = e.stepIndex) : Alike s (s.modEpisode p f) :=
  alike_modPrc s p _ rfl (hf _).1 (hf _).2

/-- Credit, occupancy, notices, the lane, the line and the counters of tables and gates. -/
theorem alike_counts {t : State} (hrtb : t.rtb = { s.rtb with ctr := t.rtb.ctr, ageLimit := t.rtb.ageLimit })
    (hgpm : t.gpm.gates = s.gpm.gates ∧ t.gpm.free = s.gpm.free ∧ t.gpm.fifo = s.gpm.fifo)
    (hprc : t.prc.port = s.prc.port) (hadu : t.adu.port = s.adu.port) (hpgs : t.pgs = s.pgs) : Alike s t := by
  obtain ⟨hgates, hfree, hfifo⟩ := hgpm
  refine alike_of_same (by rw [hrtb]) (by rw [hrtb]) hgates ?_ (fun p => ?_) hadu hpgs
  · unfold Gpm.listsOk Gpm.gate
    rw [hgates, hfree, hfifo]
    exact id
  · unfold State.prcAt
    rw [hprc]
    exact ⟨rfl, rfl, rfl⟩

theorem alike_modCru (f : CruPort → CruPort) : Alike s (s.modCru p f) := alike_counts s rfl ⟨rfl, rfl, rfl⟩ rfl rfl rfl

theorem alike_modOev (f : OevPort → OevPort) : Alike s (s.modOev p f) := alike_counts s rfl ⟨rfl, rfl, rfl⟩ rfl rfl rfl

theorem alike_modRtbCtr (f : RtbCounters → RtbCounters) : Alike s (s.modRtbCtr f) :=
  alike_counts s rfl ⟨rfl, rfl, rfl⟩ rfl rfl rfl

theorem alike_ern (e : Ern) : Alike s { s with ern := e } := alike_counts s rfl ⟨rfl, rfl, rfl⟩ rfl rfl rfl

theorem alike_raiseEpisode (c : NoticeClass) (v : Nat) : Alike s (s.raiseEpisode c p v) := alike_ern s _

theorem alike_addToPool (n : Nat) : Alike s (addToPool p n s) := by
  have hoverflow (u : State) (k : Nat) : Alike u { u with cru := { u.cru with overflow := k } } :=
    alike_counts u rfl ⟨rfl, rfl, rfl⟩ rfl rfl rfl
  unfold addToPool
  split
  · exact alike_modCru s p _
  · exact ((alike_modCru s p _).trans (hoverflow _ _)).trans (alike_raiseEpisode _ p _ _)

theorem alike_creditReport (l d : Nat) : Alike s (creditReport p l d s) := by
  unfold creditReport
  refine Alike.trans ?_ (alike_addToPool _ p _)
  exact (alike_modCru s p _).trans (alike_modEpisode _ p _ fun _ => ⟨rfl, rfl⟩)

theorem alike_restartStale : Alike s (restartStale p s) := alike_modPrc s p _ rfl rfl rfl

theorem alike_countStale : Alike s (countStale s) := alike_counts s rfl ⟨rfl, rfl, rfl⟩ rfl rfl rfl

/-- An entry changed in what the books do not read. -/
theorem alike_modEntry (i : Slot) (f : Entry → Entry)
    (hf : ∀ e, s.rtb.entry? i = some e → (f e).face = e.face)
    (hkey : ∀ e, (f e).hash = e.hash ∧ (f e).port = e.port) : Alike s (s.modEntry i f) where
  faces j := by
    show ((s.rtb.modEntry i f).entry? j).map _ = _
    rw [Rtb.entry?_modEntry]
    split
    · next h =>
      cases he : s.rtb.entry? j with
      | none => rfl
      | some e => exact congrArg some (hf e (h ▸ he))
    · rfl
  arrival := rfl
  table := Rtb.ok_modEntry i f hkey
  lists := id
  gates _ _ := .refl _
  ports _ := ⟨rfl, rfl, rfl⟩
  adu _ := rfl
  pgs := rfl

theorem alike_takeEntry (i : Slot) : Alike s (takeEntry i s) :=
  alike_modEntry s i _ (fun _ _ => rfl) fun _ => ⟨rfl, rfl⟩

theorem alike_refresh (i : Slot) : Alike s (refresh i s) :=
  (alike_modEntry s i (fun e => { e with lastActivity := s.now }) (fun _ _ => rfl) fun _ => ⟨rfl, rfl⟩).trans
    (alike_modRtbCtr _ _)

/-! ### Re-rating and grants -/

theorem Gate.ratedAt_standsAs (d : Nat) (r : Resolution) (g : Gate) : (g.ratedAt d r).StandsAs g := by
  unfold Gate.ratedAt
  split
  · next h => exact ⟨rfl, rfl, rfl, fun _ ⟨hmode, _⟩ => nomatch h.symm.trans hmode⟩
  · exact .refl g

theorem alike_rerate : Alike s (rerate p s) where
  faces i := by rw [rerate_rtb]
  arrival := by rw [rerate_rtb]
  table := by rw [rerate_rtb]; exact id
  lists := (quiet_rerate p s).listsOk
  gates _ g := by
    rw [rerate_gate]
    split
    · exact Gate.ratedAt_standsAs ..
    · exact .refl _
  ports q := by rw [rerate_prcAt]; exact ⟨rfl, rfl, rfl⟩
  adu q := rerate_aduAt ..
  pgs := (quiet_rerate p s).pgs

theorem alike_rerateIfChanged (k : Nat) : Alike s (rerateIfChanged p k s) := by
  unfold rerateIfChanged
  split
  · exact .refl s
  · exact alike_rerate s p

/-- A grant to an admitted member: its dry flag stands already, and its gate is BOUND. -/
theorem alike_grant (share : Nat) (i : Slot) (hdry : ∀ e, s.rtb.entry? i = some e → e.dry.isSome = true) :
    Alike s (grant p share s i) where
  faces j := by
    rw [grant_entry?]
    split
    · next h =>
      subst h
      cases he : s.rtb.entry? j with
      | none => rfl
      | some e =>
        have hset : (some false).map (fun _ : Bool => true) = e.dry.map fun _ => true := by
          obtain ⟨b, hb⟩ := Option.isSome_iff_exists.mp (hdry e he)
          rw [hb]; rfl
        exact congrArg (fun d => some { e.face with dry := d }) hset
    · rfl
  arrival := (quiet_grant p share s i).arrival
  table := (quiet_grant p share s i).rtbOk
  lists := (quiet_grant p share s i).listsOk
  gates hs g := by
    by_cases hg : s.gateOf i = some g
    · rw [grant_gpm_of_gate _ _ _ _ hg, Gpm.addAllowance_gate, if_pos rfl]
      exact ⟨rfl, rfl, rfl, fun hfree => absurd hfree (hs.gate_bound hg)⟩
    · rw [grant_gate_of_not_held _ _ _ _ hg]
      exact .refl _
  ports q := by rw [grant_rest]; exact ⟨rfl, rfl, rfl⟩
  adu q := by rw [grant_rest]; rfl
  pgs := (quiet_grant p share s i).pgs

theorem alike_grants (share : Nat) (l : List Slot)
    (hdry : ∀ i ∈ l, ∀ e, s.rtb.entry? i = some e → e.dry.isSome = true) : Alike s (l.foldl (grant p share) s) := by
  induction l generalizing s with
  | nil => exact .refl s
  | cons i l ih =>
    have hone := alike_grant s p share i (hdry i List.mem_cons_self)
    refine hone.trans (ih _ fun j hj f hf => ?_)
    obtain ⟨e, he, hface⟩ := hone.entry_before hf
    exact hface.dry.trans (hdry j (List.mem_cons_of_mem i hj) e he)

theorem alike_distribute : Alike s (distribute p s) := by
  unfold distribute
  dsimp only
  split
  · exact .refl s
  · split
    · exact .refl s
    · refine alike_grants s p _ _ fun i hi e he => ?_
      have hready := (List.mem_filter.mp hi).2
      unfold State.ready at hready
      rw [he] at hready
      simp only [Bool.and_eq_true, beq_iff_eq] at hready
      rw [hready.1]
      rfl

/-- A valid Gate Spent writes the dry flag that an ADMITTED entry has. -/
theorem alike_markDry (i : Slot) (h : s.booksOk) : Alike s (markDry i s) := by
  unfold markDry
  split
  · exact alike_countStale s
  · next e he =>
    split
    · next hst =>
      refine alike_modEntry s i _ (fun f hf => ?_) fun _ => ⟨rfl, rfl⟩
      obtain ⟨⟨_, hdry, _⟩, _⟩ := h.entries i f hf
      obtain rfl := Option.some.inj (he.symm.trans hf)
      obtain ⟨b, hb⟩ := Option.isSome_iff_exists.mp (hdry.mpr hst)
      have hset : (some true).map (fun _ : Bool => true) = e.dry.map fun _ => true := by rw [hb]; rfl
      exact congrArg (fun d => { e.face with dry := d }) hset
    · exact alike_countStale s

theorem alike_takeGateSpent (g : GateNo) (ep : BitVec 4) (echo : BitVec 8) (k : BitVec 32) (h : s.booksOk) :
    Alike s (takeGateSpent g ep echo k s) := by
  unfold takeGateSpent
  split
  · have hcount : Alike s { s with gpm := { s.gpm with validSpent := sat32 (s.gpm.validSpent + 1) } } :=
      alike_counts s rfl ⟨rfl, rfl, rfl⟩ rfl rfl rfl
    dsimp only
    split
    · exact hcount.trans (alike_markDry _ _ (hcount.booksOk h))
    · exact hcount
  · exact alike_countStale s

end

end Sys2Proof.Machine
end

section
/-! SUPPORT. What each action of the Admission Unit on one entry makes of the entry, its gate and the collections, and
that the books go on agreeing (R125 to R128, R134, R145). -/

namespace Sys2Proof.Machine

/-! ### Freeing a gate (R144) -/

section
variable {m : Gpm} {g : GateNo} (hb : (m.gate g).bound ≠ none)
include hb

theorem Gpm.freeGate_of_bound : m.freeGate g =
    Gpm.enter g { m.modGate g Gate.freed with free := m.free ++ [g], frees := sat32 (m.frees + 1) } :=
  if_neg (by simpa [Option.isNone_iff_eq_none] using hb)

theorem Gpm.freeGate_gate (h : GateNo) :
    (m.freeGate g).gate h = if h = g then (m.gate g).freed else m.gate h := by
  rw [Gpm.freeGate_of_bound hb, Gpm.gate_enter]
  exact Gpm.gate_modGate m g h _

theorem Gpm.freeGate_lists : (m.freeGate g).free = m.free ++ [g] ∧
    (m.freeGate g).fifo = (if g ∈ m.fifo then m.fifo else m.fifo ++ [g]) ∧
    (m.freeGate g).frees = sat32 (m.frees + 1) := by
  rw [Gpm.freeGate_of_bound hb]
  obtain ⟨_, hfree, _, hfrees, hfifo⟩ :=
    Gpm.enter_keeps { m.modGate g Gate.freed with free := m.free ++ [g], frees := sat32 (m.frees + 1) } g
  exact ⟨hfree, hfifo, hfrees⟩

end

/-- Only the gate records, the two lists and the count of frees change at a free. -/
theorem Gpm.freeGate_rest (m : Gpm) (g : GateNo) : m.freeGate g = { m with
    gates := (m.freeGate g).gates, free := (m.freeGate g).free, fifo := (m.freeGate g).fifo
    frees := (m.freeGate g).frees } := by
  unfold Gpm.freeGate Gpm.enter
  split
  · rfl
  · split <;> rfl

/-! ### The entries that the actions find -/

section
variable {s : State} {i : Slot} {e : Entry}

theorem State.booksOk.entryOk (h : s.booksOk) (he : s.rtb.entry? i = some e) : e.ok := (h.entries i e he).1

/-- An entry in SEEN, BYPASSED or UNGATED holds no gate and neither flag (R39). -/
theorem Entry.ok.bare (h : e.ok) (hst : e.state.holdsGate = false) :
    e.gate = none ∧ e.dry = none ∧ e.overdraft = none := by
  obtain ⟨hgate, hdry, hover, _⟩ := h
  have hno : e.state ≠ .admitted := fun h => by rw [h] at hst; exact nomatch hst
  refine ⟨?_, ?_, ?_⟩
  · exact Option.not_isSome_iff_eq_none.mp fun h => by rw [hgate.mp h] at hst; exact nomatch hst
  · exact Option.not_isSome_iff_eq_none.mp fun h => hno (hdry.mp h)
  · exact Option.not_isSome_iff_eq_none.mp fun h => hno (hover.mp h)

/-- An entry in WAITING, ADMITTED or RELEASED holds a gate (R39). -/
theorem Entry.ok.gated (h : e.ok) (hst : e.state.holdsGate = true) : ∃ r, e.gate = some r :=
  Option.isSome_iff_exists.mp (h.1.mpr hst)

theorem State.booksOk.waits_iff (h : s.booksOk) (he : s.rtb.entry? i = some e) :
    i ∈ (s.aduAt e.port).waitQ ↔ e.state = .waiting := by
  obtain ⟨_, hmem⟩ := h.waiting e.port
  rw [hmem, he]
  simp

theorem State.booksOk.admitted_iff (h : s.booksOk) (he : s.rtb.entry? i = some e) :
    i ∈ (s.aduAt e.port).admitted ↔ e.state = .admitted := by
  obtain ⟨_, hmem⟩ := h.admitted e.port
  rw [hmem, he]
  simp

/-- The gate that an entry holds is BOUND to it. -/
theorem State.booksOk.gate_of_entry (h : s.booksOk) (he : s.rtb.entry? i = some e) {r : GateRef}
    (hr : e.gate = some r) : (s.gpm.gate r.gate).bound = some ⟨e.hash, e.port⟩ ∧
      (s.gpm.gate r.gate).epoch = r.epoch ∧ (s.gpm.gate r.gate).mode = e.state.mode := h.held i e r he hr

theorem freeGateOf_of_gate (he : s.rtb.entry? i = some e) {r : GateRef} (hr : e.gate = some r) :
    freeGateOf i s = { s with
      gpm := s.gpm.freeGate r.gate, rtb := s.rtb.modEntry i fun x => { x with gate := none } } := by
  unfold freeGateOf
  rw [he]
  show (match e.gate with | none => s | some r => _) = _
  rw [hr]

theorem onGateOf_of_gate (he : s.rtb.entry? i = some e) {r : GateRef} (hr : e.gate = some r)
    (f : GateNo → Gpm → Gpm) : onGateOf i f s = { s with gpm := f r.gate s.gpm } := by
  have : s.gateOf i = some r.gate := by simp [State.gateOf, he, hr]
  unfold onGateOf
  rw [this]

end

/-! ### The books after an action on one entry -/

section
variable {p : Port} {i : Slot} {s t : State} {e f : Entry}

/-- The places of an entry that moves within its port. -/
theorem AtEntry.placeMoves (hat : AtEntry p i s t) (hf : f.port = p)
    (hocc : f.state.occursIn (s.prcAt p).state = true)
    (hwait : (t.aduAt p).waitQ.Nodup ∧ ∀ j, j ∈ (t.aduAt p).waitQ ↔
      if j = i then f.state = .waiting else j ∈ (s.aduAt p).waitQ)
    (hadm : (t.aduAt p).admitted.Nodup ∧ ∀ j, j ∈ (t.aduAt p).admitted ↔
      if j = i then f.state = .admitted else j ∈ (s.aduAt p).admitted) : PlaceMoves p i (some f) s t where
  states q := by
    by_cases hq : q = p
    · rw [hq, hat.state]
    · rw [(hat.others q hq).1]
  adu q hq := (hat.others q hq).2
  occurs x hx := by
    obtain rfl := Option.some.inj hx
    exact ⟨hf, hocc⟩
  waiting := ⟨hwait.1, by simpa using hwait.2⟩
  admitted := ⟨hadm.1, by simpa using hadm.2⟩

variable (h : s.booksOk) (hat : AtEntry p i s t) (he : s.rtb.entry? i = some e) (hp : e.port = p)
include h hat he hp

/-- An entry outside the collections, without a gate, that is left without one (R127, R128). -/
theorem AtEntry.books_ungated (hseen : e.state = .seen) (hf : t.rtb.entry? i = some f)
    (hkey : f.hash = e.hash ∧ f.port = e.port) (hok : f.ok) (hst : f.state.holdsGate = false)
    (hocc : f.state.occursIn (s.prcAt p).state = true) (hgpm : t.gpm = s.gpm) (hadu : t.aduAt p = s.aduAt p) :
    t.booksOk := by
  obtain ⟨hfgate, _⟩ := hok.bare hst
  obtain ⟨hegate, _⟩ := (h.entryOk he).bare (by rw [hseen]; rfl)
  have hwaits : f.state ≠ .waiting := fun h => by rw [h] at hst; exact nomatch hst
  have hadmitted : f.state ≠ .admitted := fun h => by rw [h] at hst; exact nomatch hst
  have houtW : i ∉ (s.aduAt p).waitQ := fun hi => by
    have := (h.waits_iff he).mp (hp ▸ hi)
    rw [hseen] at this
    exact nomatch this
  have houtA : i ∉ (s.aduAt p).admitted := fun hi => by
    have := (h.admitted_iff he).mp (hp ▸ hi)
    rw [hseen] at this
    exact nomatch this
  refine booksOk_of_moves h ?_ (hat.placeMoves (hkey.2.trans hp) hocc ?_ ?_) hp
  · exact {
      was := he, now := hf, others := hat.entries, table := hat.quiet.rtbOk h.table
      lists := hat.quiet.listsOk h.lists
      own := fun x hx => Option.some.inj hx ▸ ⟨hkey.1, hkey.2, hok⟩
      gates := fun g _ _ => by rw [hgpm]; exact .refl _
      takes := fun x r hx hr => by
        obtain rfl := Option.some.inj hx
        exact nomatch hfgate.symm.trans hr
      frees := fun g hg _ => by rw [heldGate_of_no_gate hegate] at hg; exact nomatch hg }
  · rw [hadu]
    refine ⟨(h.waiting p).1, fun j => ?_⟩
    split
    · next hj => exact iff_of_false (hj ▸ houtW) hwaits
    · rfl
  · rw [hadu]
    refine ⟨(h.admitted p).1, fun j => ?_⟩
    split
    · next hj => exact iff_of_false (hj ▸ houtA) hadmitted
    · rfl

/-- A SEEN entry takes the gate at the head of the free list and a place in the collection of its new state (R125,
R126, R142). -/
theorem AtEntry.books_bound {g : GateNo} {rest : List GateNo} {mode : GateMode} {res : Resolution}
    (hseen : e.state = .seen) (hfree : s.gpm.free = g :: rest) (hf : t.rtb.entry? i = some f)
    (hkey : f.hash = e.hash ∧ f.port = e.port) (hok : f.ok)
    (hgate : f.gate = some ⟨g, (s.gpm.gate g).epoch + 1⟩) (hmode : f.state.mode = mode)
    (hocc : f.state.occursIn (s.prcAt p).state = true)
    (hgpm : t.gpm = s.gpm.bind g rest ⟨e.hash, e.port⟩ mode res)
    (hwait : (t.aduAt p).waitQ.Perm (if f.state = .waiting then i :: (s.aduAt p).waitQ else (s.aduAt p).waitQ))
    (hadm : (t.aduAt p).admitted.Perm
      (if f.state = .admitted then i :: (s.aduAt p).admitted else (s.aduAt p).admitted)) :
    t.booksOk := by
  obtain ⟨hegate, _⟩ := (h.entryOk he).bare (by rw [hseen]; rfl)
  have hfreed : (s.gpm.gate g).bound = none := (h.lists.2.2 g).mp (by rw [hfree]; exact List.mem_cons_self)
  have houtW : i ∉ (s.aduAt p).waitQ := fun hi => by
    have := (h.waits_iff he).mp (hp ▸ hi)
    rw [hseen] at this
    exact nomatch this
  have houtA : i ∉ (s.aduAt p).admitted := fun hi => by
    have := (h.admitted_iff he).mp (hp ▸ hi)
    rw [hseen] at this
    exact nomatch this
  refine booksOk_of_moves h ?_ (hat.placeMoves (hkey.2.trans hp) hocc ⟨?_, fun j => ?_⟩ ⟨?_, fun j => ?_⟩) hp
  · exact {
      was := he, now := hf, others := hat.entries, table := hat.quiet.rtbOk h.table
      lists := hat.quiet.listsOk h.lists
      own := fun x hx => Option.some.inj hx ▸ ⟨hkey.1, hkey.2, hok⟩
      gates := fun k _ hk => by
        rw [hgpm, Gpm.bind_gate, if_neg]
        · exact .refl _
        · rintro rfl
          exact hk (heldGate_of_gate hgate)
      takes := fun x r hx hr => by
        obtain rfl := Option.some.inj hx
        obtain rfl := Option.some.inj (hgate.symm.trans hr)
        rw [hgpm, Gpm.bind_gate, if_pos rfl, hkey.1, hkey.2]
        exact ⟨⟨rfl, rfl, hmode.symm⟩, .inr hfreed⟩
      frees := fun k hk _ => by rw [heldGate_of_no_gate hegate] at hk; exact nomatch hk }
  · refine hwait.nodup_iff.mpr ?_
    split
    · exact List.nodup_cons.mpr ⟨houtW, (h.waiting p).1⟩
    · exact (h.waiting p).1
  · rw [hwait.mem_iff]
    by_cases hj : j = i
    · subst hj
      split <;> simp_all
    · split <;> simp [hj]
  · refine hadm.nodup_iff.mpr ?_
    split
    · exact List.nodup_cons.mpr ⟨houtA, (h.admitted p).1⟩
    · exact (h.admitted p).1
  · rw [hadm.mem_iff]
    by_cases hj : j = i
    · subst hj
      split <;> simp_all
    · split <;> simp [hj]

/-- A WAITING entry is admitted with the gate and the epoch that it has (R125, R145). -/
theorem AtEntry.books_admitted {r : GateRef} {d : Nat} {res : Resolution} (hst : e.state = .waiting)
    (hr : e.gate = some r) (hf : t.rtb.entry? i = some f) (hkey : f.hash = e.hash ∧ f.port = e.port) (hok : f.ok)
    (hgate : f.gate = some r) (hadmitted : f.state = .admitted)
    (hocc : EntryState.admitted.occursIn (s.prcAt p).state = true)
    (hgpm : t.gpm = s.gpm.want r.gate .shaped d res)
    (hwait : (t.aduAt p).waitQ = (s.aduAt p).waitQ.erase i)
    (hadm : (t.aduAt p).admitted = (s.aduAt p).admitted ++ [i]) : t.booksOk := by
  obtain ⟨hbound, hepoch, _⟩ := h.gate_of_entry he hr
  have houtA : i ∉ (s.aduAt p).admitted := fun hi => by
    have := (h.admitted_iff he).mp (hp ▸ hi)
    rw [hst] at this
    exact nomatch this
  refine booksOk_of_moves h ?_ (hat.placeMoves (hkey.2.trans hp) (hadmitted ▸ hocc) ⟨?_, fun j => ?_⟩ ⟨?_, fun j => ?_⟩) hp
  · exact {
      was := he, now := hf, others := hat.entries, table := hat.quiet.rtbOk h.table
      lists := hat.quiet.listsOk h.lists
      own := fun x hx => Option.some.inj hx ▸ ⟨hkey.1, hkey.2, hok⟩
      gates := fun k _ hk => by
        rw [hgpm, Gpm.want_gate, if_neg]
        · exact .refl _
        · rintro rfl
          exact hk (heldGate_of_gate hgate)
      takes := fun x q hx hq => by
        obtain rfl := Option.some.inj hx
        obtain rfl := Option.some.inj (hgate.symm.trans hq)
        rw [hgpm, Gpm.want_gate, if_pos rfl, hkey.1, hkey.2]
        exact ⟨⟨hbound, hepoch, by rw [hadmitted]; rfl⟩, .inl (heldGate_of_gate hr)⟩
      frees := fun k hk hnot => by
        rw [heldGate_of_gate hr] at hk
        rw [heldGate_of_gate hgate] at hnot
        exact absurd hk hnot }
  · rw [hwait]
    exact (h.waiting p).1.erase i
  · rw [hwait, (h.waiting p).1.mem_erase_iff]
    by_cases hj : j = i
    · simp [hj, hadmitted]
    · simp [hj]
  · rw [hadm]
    exact List.nodup_append.mpr ⟨(h.admitted p).1, List.nodup_singleton i, by
      rintro a ha b hb rfl
      exact houtA (List.mem_singleton.mp hb ▸ ha)⟩
  · rw [hadm, List.mem_append, List.mem_singleton]
    by_cases hj : j = i
    · simp [hj, hadmitted]
    · simp [hj]

end

/-- The entry in slot `i` of port `p` has let go of its gate and of its place, and has become `o` or has gone. -/
structure LetsGo (p : Port) (i : Slot) (e : Entry) (o : Option Entry) (s t : State) : Prop where
  now : t.rtb.entry? i = o
  others : ∀ j, j ≠ i → t.rtb.entry? j = s.rtb.entry? j
  table : s.rtb.ok → t.rtb.ok
  states : ∀ q, (t.prcAt q).state = (s.prcAt q).state
  adu : ∀ q, q ≠ p → t.aduAt q = s.aduAt q
  waitQ : (t.aduAt p).waitQ = (s.aduAt p).waitQ.erase i
  admitted : (t.aduAt p).admitted = (s.aduAt p).admitted.erase i
  gpm : t.gpm = e.gate.elim s.gpm fun r => s.gpm.freeGate r.gate
  kept : ∀ f, o = some f → f.hash = e.hash ∧ f.port = e.port ∧ f.ok ∧ f.state.holdsGate = false ∧
    f.state.occursIn (s.prcAt p).state = true

theorem LetsGo.booksOk {p : Port} {i : Slot} {e : Entry} {o : Option Entry} {s t : State} (m : LetsGo p i e o s t)
    (h : s.booksOk) (he : s.rtb.entry? i = some e) (hp : e.port = p) : t.booksOk := by
  have hnone : heldGate o = none := by
    cases o with
    | none => rfl
    | some f =>
      obtain ⟨_, _, hok, hst, _⟩ := m.kept f rfl
      exact heldGate_of_no_gate (hok.bare hst).1
  have hplaceless (st : EntryState) (hst : st.holdsGate = true) : ¬∃ f, o = some f ∧ f.state = st := by
    rintro ⟨f, hf, rfl⟩
    obtain ⟨_, _, _, hno, _⟩ := m.kept f hf
    exact nomatch hst.symm.trans hno
  have hfree (r : GateRef) (hr : e.gate = some r) (g : GateNo) :
      t.gpm.gate g = if g = r.gate then (s.gpm.gate r.gate).freed else s.gpm.gate g := by
    obtain ⟨hbound, _⟩ := h.gate_of_entry he hr
    rw [m.gpm, hr]
    exact Gpm.freeGate_gate (by rw [hbound]; nofun) g
  refine booksOk_of_moves (i := i) (o := o) h ?_ ?_ hp
  · exact {
      was := he, now := m.now, others := m.others, table := m.table h.table
      lists := by
        rw [m.gpm]
        cases e.gate with
        | none => exact h.lists
        | some r => exact Gpm.freeGate_listsOk r.gate h.lists
      own := fun f hf => by
        obtain ⟨hhash, hport, hok, _⟩ := m.kept f hf
        exact ⟨hhash, hport, hok⟩
      gates := fun g hg _ => by
        cases hr : e.gate with
        | none => rw [m.gpm, hr]; exact .refl _
        | some r =>
          rw [hfree r hr, if_neg]
          · exact .refl _
          · rintro rfl
            exact hg (heldGate_of_gate hr)
      takes := fun f r hf hr => by
        rw [hf, heldGate_of_gate hr] at hnone
        exact nomatch hnone
      frees := fun g hg _ => by
        obtain ⟨x, r, hx, hr, rfl⟩ := heldGate_eq_some hg
        obtain rfl := Option.some.inj hx
        rw [hfree r hr, if_pos rfl]
        exact ⟨rfl, rfl, rfl, rfl, rfl⟩ }
  · exact {
      states := m.states, adu := m.adu
      occurs := fun f hf => by
        obtain ⟨_, hport, _, _, hocc⟩ := m.kept f hf
        exact ⟨hport.trans hp, hocc⟩
      waiting := by
        rw [m.waitQ]
        refine ⟨(h.waiting p).1.erase i, fun j => ?_⟩
        rw [(h.waiting p).1.mem_erase_iff]
        split
        · next hj => exact iff_of_false (fun hm => hm.1 hj) (hplaceless .waiting rfl)
        · next hj => simp [hj]
      admitted := by
        rw [m.admitted]
        refine ⟨(h.admitted p).1.erase i, fun j => ?_⟩
        rw [(h.admitted p).1.mem_erase_iff]
        split
        · next hj => exact iff_of_false (fun hm => hm.1 hj) (hplaceless .admitted rfl)
        · next hj => simp [hj] }

end Sys2Proof.Machine
end

section
/-! SUPPORT. The actions of the Admission Unit keep the books, and what they make of the queues of their port: the
opening fill, arrivals and the refill (R123, R125 to R133). -/

namespace Sys2Proof.Machine

theorem placeInQueue_perm (s : State) (i : Slot) (q : List Slot) : (placeInQueue s i q).Perm (i :: q) := by
  obtain ⟨a, b, rfl, hplaced, _⟩ := placeInQueue_split s i q
  rw [hplaced]
  exact List.perm_middle

/-! ### A SEEN entry is placed -/

section
variable {p : Port} {i : Slot} {s : State} {e : Entry} (h : s.booksOk) (he : s.rtb.entry? i = some e)
  (hp : e.port = p) (hseen : e.state = .seen)
include h he hp hseen

theorem State.booksOk.seen_out : i ∉ (s.aduAt p).waitQ ∧ i ∉ (s.aduAt p).admitted := by
  rw [← hp, h.waits_iff he, h.admitted_iff he, hseen]
  exact ⟨nofun, nofun⟩

variable (hel : e.eligible = true)
include hel

theorem makeUngated_books (hst : (s.prcAt p).state.hasEpisode = true) : (makeUngated p i s).booksOk := by
  obtain ⟨hf, hadu, _, _, hgpm, _⟩ := makeUngated_effects (p := p) he
  exact (atEntry_makeUngated p i s).books_ungated h he hp hseen hf ⟨rfl, rfl⟩
    ⟨iff_of_false nofun nofun, iff_of_false nofun nofun, iff_of_false nofun nofun, fun _ => hel⟩ rfl hst hgpm hadu

theorem bypass_books (hst : (s.prcAt p).state.hasEpisode = true) : (bypass p i s).booksOk := by
  obtain ⟨hwait, _⟩ := h.seen_out he hp hseen
  obtain ⟨hgate, _⟩ := (h.entryOk he).bare (by rw [hseen]; rfl)
  obtain ⟨hf, hadu, _, _, hgpm, _⟩ := bypass_unplaced (p := p) he hgate hwait
  refine (atEntry_bypass p i s).books_ungated h he hp hseen hf ⟨rfl, rfl⟩ ?_ rfl hst hgpm hadu
  exact ⟨iff_of_false (by rw [hgate]; nofun) nofun, iff_of_false nofun nofun, iff_of_false nofun nofun, fun _ => hel⟩

variable {g : GateNo} {rest : List GateNo} (hfree : s.gpm.free = g :: rest)
  (hst : (s.prcAt p).state = .relief ∨ (s.prcAt p).state = .paused)
include hfree hst

theorem admitNew_books_bound : (admitNew p i s).booksOk := by
  obtain ⟨hf, hadu, _, hgpm⟩ := admitNew_effects (p := p) he hfree
  refine (atEntry_admitNew p i s).books_bound h he hp hseen hfree hf ⟨rfl, rfl⟩
    ⟨iff_of_true rfl rfl, iff_of_true rfl rfl, iff_of_true rfl rfl, fun _ => hel⟩ rfl rfl ?_ hgpm ?_ ?_
  · rcases hst with hst | hst <;> rw [hst] <;> rfl
  · rw [hadu]
    exact .refl _
  · rw [hadu]
    exact List.perm_append_singleton ..

theorem hold_books_bound : (hold p i s).booksOk := by
  obtain ⟨_, hdry, hover⟩ := (h.entryOk he).bare (by rw [hseen]; rfl)
  obtain ⟨hf, hadu, _, hgpm⟩ := hold_effects (p := p) he hfree
  refine (atEntry_hold p i s).books_bound h he hp hseen hfree hf ⟨rfl, rfl⟩ ?_ rfl rfl ?_ hgpm ?_ ?_
  · exact ⟨iff_of_true rfl rfl, iff_of_false (by rw [hdry]; nofun) nofun, iff_of_false (by rw [hover]; nofun) nofun,
      fun _ => hel⟩
  · rcases hst with hst | hst <;> rw [hst] <;> rfl
  · rw [hadu]
    exact placeInQueue_perm ..
  · rw [hadu]
    exact .refl _

end

section
variable {p : Port} {i : Slot} {s : State} {e : Entry} (h : s.booksOk) (he : s.rtb.entry? i = some e)
  (hp : e.port = p) (hseen : e.state = .seen) (hel : e.eligible = true)
  (hst : (s.prcAt p).state = .relief ∨ (s.prcAt p).state = .paused)
include h he hp hseen hel hst

theorem admitNew_books : (admitNew p i s).booksOk := by
  cases hfree : s.gpm.free with
  | nil =>
    rw [admitNew_of_no_free hfree]
    exact makeUngated_books h he hp hseen hel (by rcases hst with hst | hst <;> rw [hst] <;> rfl)
  | cons g rest => exact admitNew_books_bound h he hp hseen hel hfree hst

theorem hold_books : (hold p i s).booksOk := by
  cases hfree : s.gpm.free with
  | nil =>
    rw [hold_of_no_free hfree]
    exact makeUngated_books h he hp hseen hel (by rcases hst with hst | hst <;> rw [hst] <;> rfl)
  | cons g rest => exact hold_books_bound h he hp hseen hel hfree hst

theorem holdOrBypass_books : (holdOrBypass p i s).booksOk := by
  unfold holdOrBypass
  split
  · exact hold_books h he hp hseen hel hst
  · exact bypass_books h he hp hseen hel (by rcases hst with hst | hst <;> rw [hst] <;> rfl)

end

/-! ### A WAITING entry is admitted -/

section
variable {p : Port} {i : Slot} {s : State} {e : Entry} (mark : Bool)

theorem onGateOf_entry? (j : Slot) (k : Slot) (f : GateNo → Gpm → Gpm) :
    (onGateOf j f s).rtb.entry? k = s.rtb.entry? k := by
  unfold onGateOf; split <;> rfl

theorem atEntry_onGateOf (f : GateNo → Gpm → Gpm) (hf : ∀ g m, Gpm.listsOk m → Gpm.listsOk (f g m)) :
    AtEntry p i s (onGateOf i f s) := by
  have hq := quiet_onGateOf i f s hf
  unfold onGateOf at hq ⊢
  split
  · exact .refl p i s
  · next g hg =>
    rw [hg] at hq
    exact ⟨fun _ _ => ⟨rfl, rfl⟩, fun _ _ => rfl, rfl, rfl, rfl, rfl, rfl, hq⟩

theorem atEntry_admitWaiting : AtEntry p i s (admitWaiting p mark i s) := by
  unfold admitWaiting
  dsimp only
  refine AtEntry.trans ?_ (atEntry_joinAdmitted p i _ mark)
  refine AtEntry.trans ?_ (atEntry_modAdu p i _ _)
  exact atEntry_onGateOf _ fun g m => Gpm.want_listsOk g _ _ _

/-- What the admission of a WAITING entry does (R125, R145). -/
theorem admitWaiting_effects {r : GateRef} (he : s.rtb.entry? i = some e) (hr : e.gate = some r) :
    (admitWaiting p mark i s).rtb.entry? i =
      some { e with state := .admitted, dry := some true, overdraft := some mark } ∧
    (admitWaiting p mark i s).aduAt p =
      ⟨(s.aduAt p).waitQ.erase i, (s.aduAt p).admitted ++ [i]⟩ ∧
    ((admitWaiting p mark i s).prcAt p).episode = { (s.prcAt p).episode with
      admissions := sat32 ((s.prcAt p).episode.admissions + 1)
      overdrafts := sat32 ((s.prcAt p).episode.overdrafts + bit mark) } ∧
    (admitWaiting p mark i s).gpm =
      s.gpm.want r.gate .shaped (s.gpm.gate r.gate).divisor (s.currentStep p).res := by
  unfold admitWaiting
  dsimp only
  rw [onGateOf_of_gate he hr]
  refine ⟨?_, ?_, ?_, rfl⟩
  · exact (Rtb.entry?_modEntry_self ..).trans (congrArg _ he)
  · exact (State.aduAt_modAdu_self ..).trans (by rw [State.modEntry_aduAt, State.aduAt_modAdu_self]; rfl)
  · exact congrArg PrcPort.episode (State.prcAt_modPrc_self ..)

theorem admitWaiting_books (h : s.booksOk) (he : s.rtb.entry? i = some e) (hp : e.port = p)
    (hst : e.state = .waiting) : (admitWaiting p mark i s).booksOk := by
  obtain ⟨r, hr⟩ := (h.entryOk he).gated (by rw [hst]; rfl)
  have hel : e.eligible = true := h.eligible he (by rw [hst]; nofun)
  obtain ⟨hf, hadu, _, hgpm⟩ := admitWaiting_effects (p := p) mark he hr
  refine (atEntry_admitWaiting mark).books_admitted h he hp hst hr hf ⟨rfl, rfl⟩
    ⟨iff_of_true (by rw [hr]; rfl) rfl, iff_of_true rfl rfl, iff_of_true rfl rfl,
      fun _ => hel⟩ hr rfl ?_ hgpm (by rw [hadu]) (by rw [hadu])
  have hocc := (h.entries i e he).2
  rw [hst, hp] at hocc
  revert hocc
  cases (s.prcAt p).state <;> exact id

end

/-! ### The queues after an action on one entry -/

section
variable {p : Port} {i : Slot} {s t : State}

theorem Quiet.bandArrival (h : Quiet s t) (q : Port) : t.bandArrival q = s.bandArrival q := by
  unfold State.bandArrival
  rw [h.arrival]
  simp only [h.bandOf]

variable (h : AtEntry p i s t)
include h

theorem AtEntry.marked {j : Slot} (hj : j ≠ i) : t.marked j = s.marked j := by
  unfold State.marked; rw [h.entries j hj]

theorem AtEntry.overdraftCount_of_out (hadm : (t.aduAt p).admitted = (s.aduAt p).admitted)
    (hout : i ∉ (s.aduAt p).admitted) : t.overdraftCount p = s.overdraftCount p := by
  unfold State.overdraftCount
  rw [hadm]
  refine List.countP_congr fun j hj => ?_
  rw [h.marked fun e => hout (e ▸ hj)]

theorem AtEntry.overdraftCount_of_joined {f : Entry} {mark : Bool}
    (hadm : (t.aduAt p).admitted = (s.aduAt p).admitted ++ [i]) (hout : i ∉ (s.aduAt p).admitted)
    (hf : t.rtb.entry? i = some f) (hmark : f.overdraft = some mark) :
    t.overdraftCount p = s.overdraftCount p + bit mark := by
  have hi : t.marked i = mark := by
    unfold State.marked
    rw [hf]
    show (f.overdraft == some true) = mark
    rw [hmark]
    cases mark <;> rfl
  unfold State.overdraftCount
  rw [hadm, List.countP_append, List.countP_singleton, hi]
  congr 1
  refine List.countP_congr fun j hj => ?_
  rw [h.marked fun e => hout (e ▸ hj)]

end

end Sys2Proof.Machine
end

section
/-! SUPPORT. The opening fill and the refill: books and queues along the run, and the fill that they end with (R129,
R132). -/

namespace Sys2Proof.Machine

/-! ### One SEEN entry placed -/

/-- A member behind which no other band stands joins at the tail (R123). -/
theorem placeInQueue_tail {s : State} {i : Slot} {q : List Slot} (h : ∀ j ∈ q, s.bandOf j ≤ s.bandOf i) :
    placeInQueue s i q = q ++ [i] := by
  induction q with
  | nil => rfl
  | cons j q ih =>
    rw [placeInQueue, if_neg (Nat.not_lt.mpr (h j List.mem_cons_self)), ih fun k hk => h k (List.mem_cons_of_mem j hk)]
    rfl

section
variable {p : Port} {i : Slot} {s : State} {e : Entry} (he : s.rtb.entry? i = some e)
include he

theorem admitNew_placed : (∃ f, (admitNew p i s).rtb.entry? i = some f ∧ f.overdraft = some false ∧
      (admitNew p i s).aduAt p = { s.aduAt p with admitted := (s.aduAt p).admitted ++ [i] }) ∨
    (admitNew p i s).aduAt p = s.aduAt p := by
  cases hfree : s.gpm.free with
  | nil =>
    rw [admitNew_of_no_free hfree]
    exact .inr (makeUngated_effects he).2.1
  | cons g rest =>
    obtain ⟨hf, hadu, _⟩ := admitNew_effects (p := p) he hfree
    exact .inl ⟨_, hf, rfl, hadu⟩

theorem hold_placed : (hold p i s).aduAt p = { s.aduAt p with waitQ := placeInQueue s i (s.aduAt p).waitQ } ∨
    (hold p i s).aduAt p = s.aduAt p := by
  cases hfree : s.gpm.free with
  | nil =>
    rw [hold_of_no_free hfree]
    exact .inr (makeUngated_effects he).2.1
  | cons g rest =>
    obtain ⟨_, hadu, _⟩ := hold_effects (p := p) he hfree
    exact .inl hadu

end

/-! ### The opening fill (R129) -/

/-- The collections of a port in the course of its opening fill, with these entries still to be placed: under a width, and
against the arrival list by bands. -/
structure FillQueues (p : Port) (rest : List Slot) (width : Nat) (arrivals : List Slot) (u : State) : Prop where
  order : ((u.aduAt p).waitQ ++ rest).Sublist arrivals
  length : (u.aduAt p).waitQ.length ≤ 256
  unmarked : u.overdraftCount p = 0
  within : u.admittedCount p ≤ width
  filled : width ≤ u.admittedCount p ∨ (u.aduAt p).waitQ = []

/-- The opening fill of a port is under way, with these entries still to be placed. -/
structure Filling (p : Port) (rest : List Slot) (u : State) : Prop where
  books : u.booksOk
  state : (u.prcAt p).state = .relief
  todo : ∀ i ∈ rest, ∃ e, u.rtb.entry? i = some e ∧ e.port = p ∧ e.state = .seen ∧ e.eligible = true
  queues : FillQueues p rest (u.currentStep p).width (u.bandArrival p) u

section
variable {p : Port} {i : Slot} {rest : List Slot} {u : State}

theorem atEntry_placeAtOpening : AtEntry p i u (placeAtOpening p u i) := by
  unfold placeAtOpening holdOrBypass
  dsimp only
  refine (atEntry_takeEntry p i u).trans ?_
  split
  · exact atEntry_admitNew p i _
  · split
    · exact atEntry_hold p i _
    · exact atEntry_bypass p i _

theorem takeEntry_entry {e : Entry} (he : u.rtb.entry? i = some e) :
    (takeEntry i u).rtb.entry? i = some { e with granted := 0 } :=
  (Rtb.entry?_modEntry_self ..).trans (congrArg _ he)

/-- The next member of the fill stands behind all that wait. -/
theorem Filling.behind (h : Filling p (i :: rest) u) : ∀ j ∈ (u.aduAt p).waitQ, u.bandOf j ≤ u.bandOf i := fun j hj =>
  (List.pairwise_append.mp ((u.bandArrival_pairwise p).sublist h.queues.order)).2.2 j hj i List.mem_cons_self

theorem Filling.nodup (h : Filling p rest u) : rest.Nodup :=
  (List.nodup_append.mp (h.queues.order.nodup (h.books.bandArrival_nodup p))).2.1

/-- The state in which the next member of the fill is placed. -/
theorem Filling.taken (h : Filling p (i :: rest) u) : (takeEntry i u).booksOk ∧
    ∃ e, (takeEntry i u).rtb.entry? i = some e ∧ e.port = p ∧ e.state = .seen ∧ e.eligible = true := by
  obtain ⟨e, he, hp, hseen, hel⟩ := h.todo i List.mem_cons_self
  exact ⟨(alike_takeEntry u i).booksOk h.books, _, takeEntry_entry he, hp, hseen, hel⟩

/-- The collections after the next member of the fill has been placed. -/
theorem Filling.queues_step (h : Filling p (i :: rest) u) :
    FillQueues p rest (u.currentStep p).width (u.bandArrival p) (placeAtOpening p u i) := by
  obtain ⟨hbooks, e, he, hp, hseen, _⟩ := h.taken
  obtain ⟨hwaits, hout⟩ := hbooks.seen_out he hp hseen
  have hat : AtEntry p i u (placeAtOpening p u i) := atEntry_placeAtOpening
  have hskip : ((u.aduAt p).waitQ ++ rest).Sublist (u.bandArrival p) :=
    ((List.sublist_cons_self i rest).append_left _).trans h.queues.order
  have hsame (had : (placeAtOpening p u i).aduAt p = u.aduAt p) :
      FillQueues p rest (u.currentStep p).width (u.bandArrival p) (placeAtOpening p u i) :=
    ⟨by rw [had]; exact hskip, by rw [had]; exact h.queues.length,
      by rw [hat.overdraftCount_of_out (by rw [had]) hout]; exact h.queues.unmarked,
      by rw [State.admittedCount, had]; exact h.queues.within,
      by rw [State.admittedCount, had]; exact h.queues.filled⟩
  by_cases hk : u.admittedCount p < (u.currentStep p).width
  · have heq : placeAtOpening p u i = admitNew p i (takeEntry i u) := if_pos hk
    rcases admitNew_placed (p := p) he with ⟨f, hf, hmark, had⟩ | had
    · rw [← heq] at hf had
      have hempty : (u.aduAt p).waitQ = [] := h.queues.filled.resolve_left (Nat.not_le.mpr hk)
      have hwait : ((placeAtOpening p u i).aduAt p).waitQ = [] := by rw [had]; exact hempty
      refine ⟨?_, by rw [hwait]; exact Nat.zero_le _, ?_, ?_, .inr hwait⟩
      · rw [hwait]
        rw [hempty] at hskip
        exact hskip
      · rw [hat.overdraftCount_of_joined (by rw [had]; rfl) hout hf hmark, h.queues.unmarked]
        rfl
      · rw [State.admittedCount, had]
        show ((u.aduAt p).admitted ++ [i]).length ≤ _
        rw [List.length_append]
        exact hk
    · exact hsame (heq ▸ had)
  · have hwidth : (u.currentStep p).width ≤ u.admittedCount p := Nat.not_lt.mp hk
    by_cases hl : (u.aduAt p).waitQ.length < 256
    · have heq : placeAtOpening p u i = hold p i (takeEntry i u) := (if_neg hk).trans (if_pos hl)
      rcases hold_placed (p := p) he with had | had
      · rw [← heq] at had
        have hwait : ((placeAtOpening p u i).aduAt p).waitQ = (u.aduAt p).waitQ ++ [i] := by
          rw [had]
          exact (placeInQueue_congr (atEntry_takeEntry p i u).quiet.bandOf i _).trans (placeInQueue_tail h.behind)
        have hadm : ((placeAtOpening p u i).aduAt p).admitted = (u.aduAt p).admitted := by rw [had]; rfl
        refine ⟨?_, ?_, ?_, ?_, .inl ?_⟩
        · rw [hwait, List.append_assoc]
          exact h.queues.order
        · rw [hwait, List.length_append]
          exact hl
        · rw [hat.overdraftCount_of_out hadm hout]
          exact h.queues.unmarked
        · rw [State.admittedCount, hadm]
          exact h.queues.within
        · rw [State.admittedCount, hadm]
          exact hwidth
      · exact hsame (heq ▸ had)
    · have heq : placeAtOpening p u i = bypass p i (takeEntry i u) := (if_neg hk).trans (if_neg hl)
      obtain ⟨hgate, _⟩ := (hbooks.entryOk he).bare (by rw [hseen]; rfl)
      obtain ⟨_, had, _⟩ := bypass_unplaced (p := p) he hgate hwaits
      exact hsame (heq ▸ had)

theorem Filling.books_step (h : Filling p (i :: rest) u) : (placeAtOpening p u i).booksOk := by
  obtain ⟨hbooks, e, he, hp, hseen, hel⟩ := h.taken
  have hrelief : ((takeEntry i u).prcAt p).state = .relief := h.state
  unfold placeAtOpening
  dsimp only
  split
  · exact admitNew_books hbooks he hp hseen hel (.inl hrelief)
  · exact holdOrBypass_books hbooks he hp hseen hel (.inl hrelief)

theorem Filling.step (h : Filling p (i :: rest) u) : Filling p rest (placeAtOpening p u i) := by
  have hat : AtEntry p i u (placeAtOpening p u i) := atEntry_placeAtOpening
  have hnodup := List.nodup_cons.mp h.nodup
  refine ⟨h.books_step, hat.state.trans h.state, fun j hj => ?_, ?_⟩
  · obtain ⟨f, hf, hrest⟩ := h.todo j (List.mem_cons_of_mem i hj)
    exact ⟨f, (hat.entries j fun e => hnodup.1 (e ▸ hj)).trans hf, hrest⟩
  · rw [hat.currentStep, hat.quiet.bandArrival]
    exact h.queues_step

theorem Filling.run (h : Filling p rest u) : Filling p [] (rest.foldl (placeAtOpening p) u) := by
  induction rest generalizing u with
  | nil => exact h
  | cons i rest ih => exact ih h.step

end

/-! ### The refill (R132) -/

section
variable (p : Port) (mark : Bool) (i : Slot) (l : List Slot) (s : State)

theorem admitWaiting_aduAt : (admitWaiting p mark i s).aduAt p =
    ⟨(s.aduAt p).waitQ.erase i, (s.aduAt p).admitted ++ [i]⟩ := by
  have hgate : (onGateOf i (fun g m => m.want g .shaped (m.gate g).divisor (s.currentStep p).res) s).aduAt p =
      s.aduAt p := by unfold onGateOf; split <;> rfl
  refine (State.aduAt_modAdu_self ..).trans ?_
  rw [State.modEntry_aduAt, State.aduAt_modAdu_self, hgate]

/-- The admission of these members of the wait queue, one after the other. -/
def admitAll : State := l.foldl (fun u i => admitWaiting p false i u) s

theorem admitAll_cons : admitAll p (i :: l) s = admitAll p l (admitWaiting p false i s) := rfl

/-- The refill admits the members at the head of the queue that the width lets in (R132). -/
theorem refill_eq_admitAll (hst : (s.prcAt p).state = .relief) : refill p s =
    admitAll p ((s.aduAt p).waitQ.take ((s.currentStep p).width - s.admittedCount p)) s := by
  have key (q : List Slot) (u : State) : q.foldl (fun s i =>
      if s.admittedCount p < (s.currentStep p).width then admitWaiting p false i s else s) u =
      admitAll p (q.take ((u.currentStep p).width - u.admittedCount p)) u := by
    induction q generalizing u with
    | nil => rw [List.take_nil]; rfl
    | cons i q ih =>
      rw [List.foldl_cons, ih]
      split
      · next hk =>
        have hcount : (admitWaiting p false i u).admittedCount p = u.admittedCount p + 1 := by
          rw [State.admittedCount, admitWaiting_aduAt]
          exact List.length_append
        have hroom : (u.currentStep p).width - u.admittedCount p =
            ((u.currentStep p).width - (u.admittedCount p + 1)) + 1 := by omega
        rw [(atEntry_admitWaiting (p := p) (i := i) false).currentStep, hcount, hroom, List.take_succ_cons]
        rfl
      · next hk =>
        rw [Nat.sub_eq_zero_of_le (Nat.not_lt.mp hk), List.take_zero, List.take_zero]
  unfold refill
  rw [if_pos hst]
  exact key _ s

theorem refill_of_not_relief (hst : (s.prcAt p).state ≠ .relief) : refill p s = s := if_neg hst

/-- What the admission of the head of a wait queue makes of the port. -/
structure AdmittedAll (rest : List Slot) (t : State) : Prop where
  books : t.booksOk
  adu : t.aduAt p = ⟨rest, (s.aduAt p).admitted ++ l⟩
  marks : t.overdraftCount p = s.overdraftCount p
  state : (t.prcAt p).state = (s.prcAt p).state
  step : t.currentStep p = s.currentStep p
  quiet : Quiet s t
  others : ∀ q, q ≠ p → PortSame q s t

end

theorem admitAll_admits {p : Port} {l rest : List Slot} {s : State} (h : s.booksOk)
    (hq : (s.aduAt p).waitQ = l ++ rest) : AdmittedAll p l s rest (admitAll p l s) := by
  induction l generalizing s with
  | nil => exact ⟨h, by rw [List.append_nil, ← List.nil_append rest, ← hq]; rfl, rfl, rfl, rfl, .refl s, fun q _ => .refl q s⟩
  | cons i l ih =>
    obtain ⟨e, he, hp, hst⟩ := ((h.waiting p).2 i).mp (by rw [hq]; exact List.mem_cons_self)
    obtain ⟨r, hr⟩ := (h.entryOk he).gated (by rw [hst]; rfl)
    obtain ⟨hf, _⟩ := admitWaiting_effects (p := p) false he hr
    have hat : AtEntry p i s (admitWaiting p false i s) := atEntry_admitWaiting false
    have hadu := admitWaiting_aduAt p false i s
    have hout : i ∉ (s.aduAt p).admitted := fun hi => by
      have := (h.admitted_iff he).mp (hp ▸ hi)
      rw [hst] at this
      exact nomatch this
    have hone := ih (admitWaiting_books false h he hp hst) (by rw [hadu, hq]; exact List.erase_cons_head ..)
    have hmarks : (admitWaiting p false i s).overdraftCount p = s.overdraftCount p :=
      hat.overdraftCount_of_joined (by rw [hadu]) hout hf rfl
    exact {
      books := hone.books
      adu := by rw [admitAll_cons, hone.adu, hadu, List.append_assoc]; rfl
      marks := hone.marks.trans hmarks
      state := hone.state.trans hat.state
      step := hone.step.trans hat.currentStep
      quiet := hat.quiet.trans hone.quiet
      others := fun q hqp => (hat.portSame hqp fun x hx => by
        obtain rfl := Option.some.inj (he.symm.trans hx)
        exact hp).trans (hone.others q hqp) }

end Sys2Proof.Machine
end

section
/-! SUPPORT. Changes of one port that keep its books and queues: the refill, a step entered, an episode opened (R95,
R110, R129, R132). -/

namespace Sys2Proof.Machine

/-! ### Changes of one port -/

/-- Between `s` and `t` only port `p` and its entries have changed, and its books and queues have been kept, but for the
fill of the admitted set. -/
structure KeptAt (p : Port) (s t : State) : Prop where
  books : s.booksOk → t.booksOk
  others : s.booksOk → ∀ q, q ≠ p → PortSame q s t
  queue : s.booksOk → s.pgs.ok → s.queueOk p → t.queueOk p
  pgs : t.pgs = s.pgs

namespace KeptAt

variable {p : Port} {s t u : State}

theorem trans (h : KeptAt p s t) (k : KeptAt p t u) : KeptAt p s u where
  books := k.books ∘ h.books
  others hb q hq := (h.others hb q hq).trans (k.others (h.books hb) q hq)
  queue hb hp hq := k.queue (h.books hb) (h.pgs ▸ hp) (h.queue hb hp hq)
  pgs := k.pgs.trans h.pgs

theorem refl (p : Port) (s : State) : KeptAt p s s := ⟨id, fun _ q _ => .refl q s, fun _ _ => id, rfl⟩

theorem kept (h : s.booksOk → KeptAt p s t) (hpgs : t.pgs = s.pgs)
    (hfilled : s.booksOk → s.filledOk p → t.filledOk p) : Kept s t :=
  .of_port p hpgs (fun hb => (h hb).books hb) (fun hb => (h hb).others hb)
    fun hb hp hq hf => ⟨(h hb).queue hb hp hq, hfilled hb hf⟩

end KeptAt

theorem Alike.keptAt {s t : State} (h : Alike s t) (p : Port) : KeptAt p s t :=
  ⟨h.booksOk, fun _ q _ => h.portSame q, fun hb _ hq => (h.portSame p).queueOk hb hq, h.pgs⟩

section
variable (p : Port) (s : State)

/-- A change of the relief state of one port, whose entries go on occurring in it. -/
theorem keptAt_prc (c : Prc) (hocc : s.booksOk → ∀ i e, s.rtb.entry? i = some e → e.port = p →
      e.state.occursIn (c.port[p]).state = true) (hothers : ∀ q, q ≠ p → c.port[q] = s.prcAt q) :
    KeptAt p s { s with prc := c } where
  books hb := {
    table := hb.table, lists := hb.lists, held := hb.held, bound := hb.bound, unbound := hb.unbound
    waiting := hb.waiting, admitted := hb.admitted
    entries := fun i e he => by
      obtain ⟨hok, hold⟩ := hb.entries i e he
      refine ⟨hok, ?_⟩
      by_cases hp : e.port = p
      · exact (hp ▸ hocc hb i e he hp :)
      · show e.state.occursIn (c.port[e.port]).state = true
        rw [hothers e.port hp]
        exact hold }
  others _ q hq := by
    have hsame : State.prcAt { s with prc := c } q = s.prcAt q := hothers q hq
    exact ⟨by rw [hsame], by rw [hsame], by rw [hsame], rfl, rfl, rfl, fun i e he _ => ⟨e, he, .refl e⟩⟩
  queue _ _ hq := ⟨hq.order, hq.length, hq.marks, hq.admitted⟩
  pgs := rfl

theorem keptAt_modPrc (f : PrcPort → PrcPort) (hocc : s.booksOk → ∀ i e, s.rtb.entry? i = some e → e.port = p →
      e.state.occursIn (f (s.prcAt p)).state = true) : KeptAt p s (s.modPrc p f) :=
  keptAt_prc p s _ (fun hb i e he hp => by
      show e.state.occursIn ((s.modPrc p f).prcAt p).state = true
      rw [State.prcAt_modPrc_self]
      exact hocc hb i e he hp)
    fun q hq => State.prcAt_modPrc_ne p s f hq

/-- Every entry of a port occurs in the port's state. -/
theorem State.booksOk.occurs {s : State} (h : s.booksOk) {i : Slot} {e : Entry} (he : s.rtb.entry? i = some e) :
    e.state.occursIn (s.prcAt e.port).state = true := (h.entries i e he).2

/-- A change of the relief state of a port that leaves its state code. -/
theorem keptAt_modPrc_same (f : PrcPort → PrcPort) (hf : (f (s.prcAt p)).state = (s.prcAt p).state) :
    KeptAt p s (s.modPrc p f) :=
  keptAt_modPrc p s f fun hb i e he hp => by
    rw [hf, ← hp]
    exact hb.occurs he

/-! ### The refill -/

theorem Pgs.ok.width {g : Pgs} (h : g.ok) (q : ProgNo) (i : Nat) : ((g.programs[q]).getD i Step.none).width ≤ 64 := by
  rw [List.getD_eq_getElem?_getD]
  cases hi : (g.programs[q])[i]? with
  | none => exact Nat.zero_le _
  | some st =>
    obtain ⟨_, hall⟩ := h.2 q
    obtain ⟨_, _, hwidth, _⟩ := hall st (List.mem_of_getElem? hi)
    exact hwidth

theorem currentStep_width {s : State} (h : s.pgs.ok) (p : Port) : (s.currentStep p).width ≤ 64 := h.width _ _

/-- The refill, as the admission of the head of the queue. -/
theorem refill_admits (h : s.booksOk) (hst : (s.prcAt p).state = .relief) :
    let n := (s.currentStep p).width - s.admittedCount p
    AdmittedAll p ((s.aduAt p).waitQ.take n) s ((s.aduAt p).waitQ.drop n) (refill p s) := by
  rw [refill_eq_admitAll p s hst]
  exact admitAll_admits h (List.take_append_drop _ _).symm

theorem keptAt_refill : KeptAt p s (refill p s) := by
  by_cases hst : (s.prcAt p).state = .relief
  · refine ⟨fun hb => (refill_admits p s hb hst).books, fun hb => (refill_admits p s hb hst).others, fun hb hp hq => ?_,
      (quiet_refill p s).pgs⟩
    have hdone := refill_admits p s hb hst
    have hwidth := currentStep_width hp p
    have hadmitted := hq.admitted
    refine ⟨?_, ?_, ?_, ?_⟩
    · rw [hdone.adu, hdone.quiet.bandArrival]
      exact (List.drop_sublist _ _).trans hq.order
    · rw [hdone.adu, List.length_drop]
      exact (Nat.sub_le _ _).trans hq.length
    · rw [hdone.marks]
      exact hq.marks
    · rw [hdone.marks, State.admittedCount, hdone.adu, List.length_append, List.length_take]
      unfold State.admittedCount at hadmitted ⊢
      omega
  · rw [refill_of_not_relief p s hst]
    exact .refl p s

/-- After a refill the width is reached or none waits (R132). -/
theorem refill_filled (h : s.booksOk) : (refill p s).filledOk p := by
  intro hr
  by_cases hst : (s.prcAt p).state = .relief
  · have hdone := refill_admits p s h hst
    rw [hdone.step, State.admittedCount, hdone.adu, List.length_append, List.length_take]
    by_cases hlen : (s.aduAt p).waitQ.length ≤ (s.currentStep p).width - s.admittedCount p
    · exact .inr (List.drop_eq_nil_of_le hlen)
    · unfold State.admittedCount at hlen ⊢
      exact .inl (by omega)
  · rw [refill_of_not_relief p s hst] at hr
    exact absurd hr hst

theorem Alike.filledOk {s t : State} (h : Alike s t) {p : Port} (hs : s.filledOk p) : t.filledOk p :=
  (h.portSame p).filledOk hs

/-! ### A step is entered (R110) -/

theorem keptAt_stepStarted (index : Nat) : KeptAt p s (stepStarted p index s) := by
  unfold stepStarted
  refine KeptAt.trans ?_ (keptAt_modPrc_same p _ _ rfl)
  refine KeptAt.trans ?_ ((alike_modCru _ p _).keptAt p)
  exact keptAt_modPrc_same p s _ rfl

theorem keptAt_enterStep (index : Nat) (byGuard : Bool) : KeptAt p s (enterStep p index byGuard s) := by
  rw [enterStep_eq]
  exact (((keptAt_stepStarted p s index).trans (keptAt_refill p _)).trans ((alike_rerate _ p).keptAt p)).trans
    ((alike_raiseEpisode _ p _ _).keptAt p)

theorem enterStep_filled (index : Nat) (byGuard : Bool) (h : s.booksOk) :
    (enterStep p index byGuard s).filledOk p := by
  rw [enterStep_eq]
  exact (alike_raiseEpisode _ p _ _).filledOk ((alike_rerate _ p).filledOk
    (refill_filled p _ ((keptAt_stepStarted p s index).books h)))

/-! ### An episode is opened (R95, R129) -/

/-- Every entry of a port is SEEN. -/
def State.allSeen (s : State) (p : Port) : Prop := ∀ i e, s.rtb.entry? i = some e → e.port = p → e.state = .seen

/-- A port without an episode has SEEN entries only. -/
theorem State.booksOk.allSeen {s : State} (h : s.booksOk) {p : Port} (hst : (s.prcAt p).state.hasEpisode = false) :
    s.allSeen p := fun i e he hp => by
  have hocc := h.occurs he
  rw [hp] at hocc
  revert hocc hst
  cases e.state <;> cases (s.prcAt p).state <;> simp [EntryState.occursIn, PortState.hasEpisode]

theorem State.booksOk.empty_of_allSeen {s : State} (h : s.booksOk) {p : Port} (hseen : s.allSeen p) :
    s.aduAt p = ⟨[], []⟩ := by
  have hwait : (s.aduAt p).waitQ = [] := List.eq_nil_iff_forall_not_mem.mpr fun i hi => by
    obtain ⟨e, he, hp, hst⟩ := ((h.waiting p).2 i).mp hi
    exact nomatch hst.symm.trans (hseen i e he hp)
  have hadm : (s.aduAt p).admitted = [] := List.eq_nil_iff_forall_not_mem.mpr fun i hi => by
    obtain ⟨e, he, hp, hst⟩ := ((h.admitted p).2 i).mp hi
    exact nomatch hst.symm.trans (hseen i e he hp)
  exact (congrArg₂ AduPort.mk hwait hadm :)

theorem fillOrder_eq : s.fillOrder p = (s.bandArrival p).filter (s.standsIn .seen) := inBandOrder_eq s p .seen

theorem keptAt_beginEpisode (o : Origin) (q : ProgNo) (hseen : s.allSeen p) : KeptAt p s (beginEpisode p o q s) := by
  unfold beginEpisode
  dsimp only
  have hcounter (n : Nat) : KeptAt p s { s with prc := { s.prc with episodeCounter := n } } :=
    keptAt_prc p s _ (fun hb i e he hp => by rw [hseen i e he hp]; rfl) fun _ _ => rfl
  refine KeptAt.trans ?_ (keptAt_modPrc_same p _ _ rfl)
  refine KeptAt.trans ?_ (keptAt_modPrc p _ _ fun _ i e he hp => by rw [hseen i e he hp]; rfl)
  refine KeptAt.trans ?_ ((alike_modCru _ p _).keptAt p)
  refine KeptAt.trans ?_ ((alike_modOev _ p _).keptAt p)
  exact (hcounter _).trans (keptAt_modPrc_same p _ _ rfl)

end

section
variable {p : Port} {s : State}

/-- The opening fill of a port in RELIEF that starts with SEEN entries only. -/
theorem filling_start (h : s.booksOk) (hst : (s.prcAt p).state = .relief) (hseen : s.allSeen p) :
    Filling p (s.fillOrder p) s where
  books := h
  state := hst
  todo i hi := by
    rw [fillOrder_eq, List.mem_filter, h.mem_bandArrival, State.standsIn_iff] at hi
    obtain ⟨⟨e, he, hp⟩, f, hf, hel, _⟩ := hi
    obtain rfl := Option.some.inj (he.symm.trans hf)
    exact ⟨e, he, hp, hseen i e he hp, hel⟩
  queues := by
    have hempty := h.empty_of_allSeen hseen
    refine ⟨?_, ?_, ?_, ?_, .inr ?_⟩
    · rw [hempty, fillOrder_eq]
      exact List.filter_sublist
    · rw [hempty]
      exact Nat.zero_le _
    · rw [State.overdraftCount, hempty]
      rfl
    · rw [State.admittedCount, hempty]
      exact Nat.zero_le _
    · rw [hempty]

/-- The fill leaves the other ports alone. -/
theorem Filling.others {rest : List Slot} {u : State} (h : Filling p rest u) {q : Port} (hq : q ≠ p) :
    PortSame q u (rest.foldl (placeAtOpening p) u) := by
  induction rest generalizing u with
  | nil => exact .refl q u
  | cons i rest ih =>
    obtain ⟨e, he, hp, _⟩ := h.todo i List.mem_cons_self
    refine (atEntry_placeAtOpening.portSame hq fun x hx => ?_).trans (ih h.step)
    obtain rfl := Option.some.inj (he.symm.trans hx)
    exact hp

theorem keptAt_openingFill (hst : (s.prcAt p).state = .relief) (hseen : s.allSeen p) :
    KeptAt p s (openingFill p s) where
  books h := (filling_start h hst hseen).run.books
  others h _ hq := (filling_start h hst hseen).others hq
  queue h hpgs _ := by
    have hdone := (filling_start h hst hseen).run.queues
    refine ⟨?_, hdone.length, ?_, ?_⟩
    · have horder := hdone.order
      rw [List.append_nil] at horder
      exact horder
    · show State.overdraftCount _ p ≤ 8
      rw [openingFill, hdone.unmarked]
      exact Nat.zero_le _
    · have hwithin := hdone.within
      have hwidth : ((openingFill p s).currentStep p).width ≤ 64 :=
        currentStep_width ((quiet_openingFill p s).pgs ▸ hpgs) p
      exact (hwithin.trans hwidth).trans (Nat.le_add_right _ _)
  pgs := (quiet_openingFill p s).pgs

theorem beginEpisode_state (o : Origin) (q : ProgNo) : ((beginEpisode p o q s).prcAt p).state = .relief := by
  rw [beginEpisode_prcAt]

theorem keptAt_openEpisode (o : Origin) (q : ProgNo) (hseen : s.allSeen p) : KeptAt p s (openEpisode p o q s) := by
  rw [openEpisode_eq]
  have hfill := keptAt_openingFill (s := beginEpisode p o q s) (beginEpisode_state o q) hseen
  exact (((keptAt_beginEpisode p s o q hseen).trans hfill).trans (keptAt_enterStep p _ 0 false)).trans
    ((alike_raiseEpisode _ p _ _).keptAt p)

theorem openEpisode_filled (o : Origin) (q : ProgNo) (h : s.booksOk) (hseen : s.allSeen p) :
    (openEpisode p o q s).filledOk p := by
  rw [openEpisode_eq]
  have hfill := keptAt_openingFill (s := beginEpisode p o q s) (beginEpisode_state o q) hseen
  exact (alike_raiseEpisode _ p _ _).filledOk (enterStep_filled p _ 0 false
    (((keptAt_beginEpisode p s o q hseen).trans hfill).books h))

theorem kept_openEpisode (o : Origin) (q : ProgNo) (hseen : s.booksOk → s.allSeen p) : Kept s (openEpisode p o q s) :=
  .of_port p (quiet_openEpisode p o q s).pgs (fun h => (keptAt_openEpisode o q (hseen h)).books h)
    (fun h => (keptAt_openEpisode o q (hseen h)).others h)
    fun h hp hq _ => ⟨(keptAt_openEpisode o q (hseen h)).queue h hp hq, openEpisode_filled o q h (hseen h)⟩

theorem kept_checkOpening : Kept s (checkOpening p s) := by
  unfold checkOpening
  split
  · next h =>
    refine kept_openEpisode _ _ fun hb => hb.allSeen ?_
    simp only [State.openingHolds, Bool.and_eq_true, beq_iff_eq] at h
    obtain ⟨⟨⟨hwatch, _⟩, _⟩, _⟩ := h
    rw [hwatch]
    rfl
  · exact .refl s

end

end Sys2Proof.Machine
end

section
/-! SUPPORT. Release at the entry into the drain phase and return at the episode end: what they make of every entry and
of every gate of the port, and that the books go on agreeing (R41, R137, R138, R144, R145). -/

namespace Sys2Proof.Machine

/-! ### Freeing several gates (R144) -/

/-- These gates are freed in turn. -/
def Gpm.freeAll (l : List GateNo) (m : Gpm) : Gpm := l.foldl (fun m g => m.freeGate g) m

theorem GatesFreed.nil (m : Gpm) : GatesFreed [] m m :=
  ⟨nofun, fun _ _ => rfl, ⟨(List.append_nil _).symm, (List.append_nil _).symm⟩, rfl, rfl⟩

/-- A free of one gate and then of others. -/
theorem GatesFreed.cons {g : GateNo} {l : List GateNo} {m n : Gpm} (hb : (m.gate g).bound ≠ none) (hg : g ∉ l)
    (h : GatesFreed l (m.freeGate g) n) : GatesFreed (g :: l) m n := by
  obtain ⟨hfree, hfifo, hfrees⟩ := Gpm.freeGate_lists hb
  refine ⟨fun k hk => ?_, fun k hk => ?_, ⟨?_, ?_⟩, ?_, ?_⟩
  · rcases List.mem_cons.mp hk with rfl | hk
    · rw [h.others k hg, Gpm.freeGate_gate hb, if_pos rfl]
      rfl
    · rw [h.freed k hk, Gpm.freeGate_gate hb, if_neg fun e : k = g => hg (e ▸ hk)]
  · rw [h.others k fun hl => hk (List.mem_cons_of_mem g hl), Gpm.freeGate_gate hb,
      if_neg fun e : k = g => hk (e ▸ List.mem_cons_self)]
  · rw [h.lists.1, hfree, List.append_assoc]
    rfl
  · rw [h.lists.2, hfifo]
    have hsame : l.filter (· ∉ m.fifo ++ [g]) = l.filter (· ∉ m.fifo) := List.filter_congr fun k hk => by
      have : k ≠ g := fun e => hg (e ▸ hk)
      simp [this]
    split
    · next hin => rw [List.filter_cons_of_neg (by simpa using hin)]
    · next hin => rw [hsame, List.filter_cons_of_pos (by simpa using hin), List.append_assoc]; rfl
  · rw [h.count, hfrees, if_neg (List.cons_ne_nil g l), List.length_cons]
    unfold sat32
    split
    · next hl => rw [hl]; rfl
    · omega
  · have hrest := h.rest
    rw [Gpm.freeGate_rest m g] at hrest
    exact hrest

theorem Gpm.freeAll_freed {l : List GateNo} {m : Gpm} (hl : l.Nodup) (hb : ∀ g ∈ l, (m.gate g).bound ≠ none) :
    GatesFreed l m (m.freeAll l) := by
  induction l generalizing m with
  | nil => exact .nil m
  | cons g l ih =>
    obtain ⟨hg, hl⟩ := List.nodup_cons.mp hl
    have hbg := hb g List.mem_cons_self
    refine .cons hbg hg (ih hl fun k hk => ?_)
    rw [Gpm.freeGate_gate hbg, if_neg fun e : k = g => hg (e ▸ hk)]
    exact hb k (List.mem_cons_of_mem g hk)

theorem Gpm.freeAll_listsOk {l : List GateNo} {m : Gpm} (h : m.listsOk) : (m.freeAll l).listsOk := by
  induction l generalizing m with
  | nil => exact h
  | cons g l ih => exact ih (Gpm.freeGate_listsOk g h)

/-! ### Return (R41, R138) -/

/-- An entry returned to SEEN. -/
def Entry.returned (e : Entry) : Entry := { e with state := .seen, gate := none, dry := none, overdraft := none }

section
variable (s : State) (i : Slot)

theorem freeGateOf_gpm : (freeGateOf i s).gpm = (s.gateOf i).elim s.gpm fun g => s.gpm.freeGate g := by
  unfold freeGateOf State.gateOf
  cases s.rtb.entry? i with
  | none => rfl
  | some e =>
    show State.gpm (match e.gate with | none => s | some r => _) = _
    cases hg : e.gate with
    | none => simp [hg]
    | some r => simp [hg]

theorem freeGateOf_entry? (j : Slot) : (freeGateOf i s).rtb.entry? j =
    if j = i then (s.rtb.entry? j).map fun e => { e with gate := none } else s.rtb.entry? j := by
  unfold freeGateOf
  cases hi : s.rtb.entry? i with
  | none =>
    show s.rtb.entry? j = _
    split
    · next h => rw [h, hi]; rfl
    · rfl
  | some e =>
    show Rtb.entry? (State.rtb (match e.gate with | none => s | some r => _)) j = _
    cases hg : e.gate with
    | none =>
      show s.rtb.entry? j = _
      split
      · next h => rw [h, hi, Option.map_some, ← hg]
      · rfl
    | some r => exact Rtb.entry?_modEntry ..

theorem returnEntry_gpm : (returnEntry s i).gpm = (s.gateOf i).elim s.gpm fun g => s.gpm.freeGate g :=
  freeGateOf_gpm s i

theorem returnEntry_entry? (j : Slot) : (returnEntry s i).rtb.entry? j =
    if j = i then (s.rtb.entry? j).map Entry.returned else s.rtb.entry? j := by
  refine (Rtb.entry?_modEntry ..).trans ?_
  rw [freeGateOf_entry?]
  split
  · rw [Option.map_map]
    rfl
  · rfl

end

section
variable {s : State} {l : List Slot}

theorem returnEntries_entry? (hl : l.Nodup) (j : Slot) : (l.foldl returnEntry s).rtb.entry? j =
    if j ∈ l then (s.rtb.entry? j).map Entry.returned else s.rtb.entry? j := by
  induction l generalizing s with
  | nil => rfl
  | cons i l ih =>
    obtain ⟨hi, hl⟩ := List.nodup_cons.mp hl
    rw [List.foldl_cons, ih hl, returnEntry_entry?]
    by_cases hj : j = i
    · subst hj
      simp [hi]
    · simp [hj]

theorem returnEntries_gpm (hl : l.Nodup) : (l.foldl returnEntry s).gpm = s.gpm.freeAll (l.filterMap s.gateOf) := by
  induction l generalizing s with
  | nil => rfl
  | cons i l ih =>
    obtain ⟨hi, hl⟩ := List.nodup_cons.mp hl
    have hgates : l.filterMap (returnEntry s i).gateOf = l.filterMap s.gateOf := List.filterMap_congr fun j hj => by
      have hji : j ≠ i := fun e => hi (e ▸ hj)
      unfold State.gateOf
      rw [returnEntry_entry?, if_neg hji]
    rw [List.foldl_cons, ih hl, hgates, returnEntry_gpm]
    cases hg : s.gateOf i with
    | none => rw [List.filterMap_cons_none hg]; rfl
    | some g => rw [List.filterMap_cons_some hg]; rfl

end

section
variable {s : State} (h : s.gatesOk) (p : Port)
include h

theorem State.gatesOk.in_arrival {i : Slot} {e : Entry} (he : s.rtb.entry? i = some e) :
    i ∈ s.rtb.arrival[p] ↔ e.port = p := by
  obtain ⟨_, hmem⟩ := h.table.2 p
  rw [hmem, he]
  simp

theorem returnAll_entry? {i : Slot} {e : Entry} (he : s.rtb.entry? i = some e) : (returnAll p s).rtb.entry? i =
    some (if e.port = p then e.returned else e) := by
  show ((s.rtb.arrival[p]).foldl returnEntry s).rtb.entry? i = _
  rw [returnEntries_entry? (h.table.2 p).1, he]
  by_cases hp : e.port = p
  · rw [if_pos ((h.in_arrival p he).mpr hp), if_pos hp]
    rfl
  · rw [if_neg fun hi => hp ((h.in_arrival p he).mp hi), if_neg hp]

/-- An entry after the return, and the entry it was. -/
theorem returnAll_entry_before {i : Slot} {f : Entry} (hf : (returnAll p s).rtb.entry? i = some f) :
    ∃ e, s.rtb.entry? i = some e ∧ f = if e.port = p then e.returned else e := by
  cases he : s.rtb.entry? i with
  | none =>
    have hnone : (returnAll p s).rtb.entry? i = none := by
      show ((s.rtb.arrival[p]).foldl returnEntry s).rtb.entry? i = none
      rw [returnEntries_entry? (h.table.2 p).1, he]
      exact ite_self _
    exact nomatch hnone.symm.trans hf
  | some e =>
    rw [returnAll_entry? h p he] at hf
    exact ⟨e, rfl, (Option.some.inj hf).symm⟩

theorem State.gatesOk.portGates_bound {g : GateNo} (hg : g ∈ s.portGates p) :
    ∃ i e r, s.rtb.entry? i = some e ∧ e.port = p ∧ e.gate = some r ∧ r.gate = g := by
  obtain ⟨i, hi, hgate⟩ := List.mem_filterMap.mp hg
  obtain ⟨e, r, he, hr, hrg⟩ := heldGate_eq_some hgate
  exact ⟨i, e, r, he, (h.in_arrival p he).mp hi, hr, hrg⟩

theorem State.gatesOk.mem_portGates {i : Slot} {e : Entry} {r : GateRef} (he : s.rtb.entry? i = some e)
    (hp : e.port = p) (hr : e.gate = some r) : r.gate ∈ s.portGates p := by
  refine List.mem_filterMap.mpr ⟨i, (h.in_arrival p he).mpr hp, ?_⟩
  rw [gateOf_eq_heldGate, he]
  exact heldGate_of_gate hr

theorem State.gatesOk.portGates_nodup : (s.portGates p).Nodup :=
  (h.table.2 p).1.filterMap fun _ _ _ hi hj => h.slot_of_gate hi hj

/-- What the return makes of the Gate Pool Manager (R144). -/
theorem returnAll_freed : GatesFreed (s.portGates p) s.gpm (returnAll p s).gpm := by
  have hgpm : (returnAll p s).gpm = s.gpm.freeAll (s.portGates p) := returnEntries_gpm (h.table.2 p).1
  rw [hgpm]
  refine Gpm.freeAll_freed (h.portGates_nodup p) fun g hg => ?_
  obtain ⟨i, e, r, he, _, hr, rfl⟩ := h.portGates_bound p hg
  obtain ⟨hbound, _⟩ := h.held i e r he hr
  rw [hbound]
  nofun

theorem returnAll_gatesOk : (returnAll p s).gatesOk := by
  have hfreed := returnAll_freed h p
  have hquiet := quiet_returnAll p s
  refine ⟨hquiet.rtbOk h.table, hquiet.listsOk h.lists, fun i f hf => ?_, fun i f r hf hr => ?_, fun g k hk => ?_,
    fun g hg => ?_⟩
  · obtain ⟨e, he, rfl⟩ := returnAll_entry_before h p hf
    split
    · exact ⟨iff_of_false nofun nofun, iff_of_false nofun nofun, iff_of_false nofun nofun, fun hn => absurd rfl hn⟩
    · exact h.own i e he
  · obtain ⟨e, he, rfl⟩ := returnAll_entry_before h p hf
    split at hr
    · exact nomatch hr
    · next hp =>
      have hout : r.gate ∉ s.portGates p := fun hg => by
        obtain ⟨j, x, q, hx, hxp, hq, hqr⟩ := h.portGates_bound p hg
        have hij : j = i := h.slot_of_gate (g := r.gate) (by rw [hx, heldGate_of_gate hq, hqr])
          (by rw [he, heldGate_of_gate hr])
        subst hij
        obtain rfl := Option.some.inj (he.symm.trans hx)
        exact hp hxp
      rw [hfreed.others _ hout, if_neg hp]
      exact h.held i e r he hr
  · have hout : g ∉ s.portGates p := fun hg => by
      rw [hfreed.freed g hg] at hk
      exact nomatch hk
    rw [hfreed.others g hout] at hk
    obtain ⟨i, e, r, he, hhash, hport, hr, hrg⟩ := h.bound g k hk
    have hp : e.port ≠ p := fun hp => hout (hrg ▸ h.mem_portGates p he hp hr)
    exact ⟨i, e, r, by rw [returnAll_entry? h p he, if_neg hp], hhash, hport, hr, hrg⟩
  · by_cases hin : g ∈ s.portGates p
    · rw [hfreed.freed g hin]
      exact ⟨rfl, rfl, rfl, rfl⟩
    · rw [hfreed.others g hin] at hg ⊢
      exact h.unbound g hg

end

end Sys2Proof.Machine
end

section
/-! SUPPORT. Release at the entry into the drain phase: gates OPEN, entries RELEASED, and the books go on agreeing (R137,
R145). -/

namespace Sys2Proof.Machine

/-! ### Releasing several gates -/

/-- These gates are released in turn (R145). -/
def Gpm.releaseGates (l : List GateNo) (m : Gpm) : Gpm := l.foldl (fun m g => m.release g) m

/-- The record of a released gate: OPEN, and the pending add is not sent (R145). -/
def Gate.released (g : Gate) : Gate := { g with mode := .opened, pendingAdd := 0 }

section
variable (m : Gpm) (g : GateNo)

theorem Gpm.release_gate (h : GateNo) : (m.release g).gate h = if h = g then (m.gate g).released else m.gate h := by
  unfold Gpm.release
  rw [Gpm.gate_modGate, Gpm.want_gate, Gpm.want_gate, if_pos rfl]
  split <;> rfl

theorem Gpm.release_fifo (hm : (m.gate g).mode ≠ .opened) :
    (m.release g).fifo = if g ∈ m.fifo then m.fifo else m.fifo ++ [g] := by
  obtain ⟨_, _, _, _, hfifo⟩ := Gpm.enter_keeps
    (m.modGate g fun x => { x with mode := .opened, divisor := (m.gate g).divisor, res := (m.gate g).res }) g
  have hwant : m.want g .opened (m.gate g).divisor (m.gate g).res = Gpm.enter g
      (m.modGate g fun x => { x with mode := .opened, divisor := (m.gate g).divisor, res := (m.gate g).res }) :=
    if_neg fun h => hm h.1
  unfold Gpm.release
  rw [hwant]
  exact hfifo

/-- A release changes the gate records and the FIFO only. -/
theorem Gpm.release_rest : m.release g = { m with gates := (m.release g).gates, fifo := (m.release g).fifo } := by
  unfold Gpm.release Gpm.want Gpm.enter
  dsimp only
  split
  · rfl
  · split <;> rfl

end

theorem Gate.released_released (g : Gate) : g.released.released = g.released := rfl

section
variable {m : Gpm} {l : List GateNo}

theorem Gpm.releaseGates_gate (g : GateNo) :
    (m.releaseGates l).gate g = if g ∈ l then (m.gate g).released else m.gate g := by
  induction l generalizing m with
  | nil => rfl
  | cons k l ih =>
    show ((m.release k).releaseGates l).gate g = _
    rw [ih, Gpm.release_gate]
    by_cases hg : g = k
    · simp [hg, Gate.released_released]
    · simp [hg]

theorem Gpm.releaseGates_rest :
    m.releaseGates l = { m with gates := (m.releaseGates l).gates, fifo := (m.releaseGates l).fifo } := by
  have key : ∃ gates fifo, m.releaseGates l = { m with gates := gates, fifo := fifo } := by
    induction l generalizing m with
    | nil => exact ⟨m.gates, m.fifo, rfl⟩
    | cons k l ih =>
      obtain ⟨gates, fifo, hrest⟩ := ih (m := m.release k)
      refine ⟨gates, fifo, hrest.trans ?_⟩
      rw [Gpm.release_rest m k]
  obtain ⟨gates, fifo, hrest⟩ := key
  rw [hrest]

/-- Gates that are not yet OPEN join the FIFO in turn, those in it keep their place (R145, R147). -/
theorem Gpm.releaseGates_fifo (hl : l.Nodup) (hm : ∀ g ∈ l, (m.gate g).mode ≠ .opened) :
    (m.releaseGates l).fifo = m.fifo ++ l.filter (· ∉ m.fifo) := by
  induction l generalizing m with
  | nil => exact (List.append_nil _).symm
  | cons g l ih =>
    obtain ⟨hg, hl⟩ := List.nodup_cons.mp hl
    have hrest := ih (m := m.release g) hl fun k hk => by
      rw [Gpm.release_gate, if_neg fun e : k = g => hg (e ▸ hk)]
      exact hm k (List.mem_cons_of_mem g hk)
    show ((m.release g).releaseGates l).fifo = _
    rw [hrest, Gpm.release_fifo m g (hm g List.mem_cons_self)]
    have hsame : l.filter (· ∉ m.fifo ++ [g]) = l.filter (· ∉ m.fifo) := List.filter_congr fun k hk => by
      have : k ≠ g := fun e => hg (e ▸ hk)
      simp [this]
    split
    · next hin => rw [List.filter_cons_of_neg (by simpa using hin)]
    · next hin => rw [hsame, List.filter_cons_of_pos (by simpa using hin), List.append_assoc]; rfl

end

/-! ### Release (R137) -/

/-- An entry after the release: RELEASED if it was held or admitted. -/
def Entry.released (e : Entry) : Entry :=
  if e.state = .waiting ∨ e.state = .admitted then { e with state := .released, dry := none, overdraft := none } else e

theorem Entry.ok.released {e : Entry} (he : e.ok) : e.released.ok := by
  unfold Entry.released
  split
  · next hst =>
    obtain ⟨r, hr⟩ := he.gated (by rcases hst with hst | hst <;> rw [hst] <;> rfl)
    obtain ⟨_, _, _, hel⟩ := he
    exact ⟨iff_of_true (by rw [hr]; rfl) rfl, iff_of_false nofun nofun, iff_of_false nofun nofun,
      fun _ => hel (by rcases hst with hst | hst <;> rw [hst] <;> nofun)⟩
  · exact he

theorem Entry.released_keeps (e : Entry) : e.released.hash = e.hash ∧ e.released.port = e.port ∧
    e.released.gate = e.gate := by
  unfold Entry.released
  split <;> exact ⟨rfl, rfl, rfl⟩

/-- The gate of a held or an admitted entry. -/
def State.heldBack (s : State) (i : Slot) : Option GateNo :=
  (s.rtb.entry? i).bind fun e => if e.state = .waiting ∨ e.state = .admitted then e.gate.map (·.gate) else none

section
variable (s : State) (i : Slot)

theorem releaseEntry_gpm : (releaseEntry s i).gpm = (s.heldBack i).elim s.gpm fun g => s.gpm.release g := by
  unfold releaseEntry State.heldBack
  cases he : s.rtb.entry? i with
  | none => rfl
  | some e =>
    show State.gpm (if _ then _ else _) = Option.elim (if _ then _ else _) _ _
    split
    · show (onGateOf i (fun g m => m.release g) s).gpm = _
      unfold onGateOf State.gateOf
      rw [he]
      show State.gpm (match e.gate.map (·.gate) with | none => s | some g => _) = _
      cases e.gate <;> rfl
    · rfl

theorem releaseEntry_entry? (j : Slot) : (releaseEntry s i).rtb.entry? j =
    if j = i then (s.rtb.entry? j).map Entry.released else s.rtb.entry? j := by
  unfold releaseEntry
  cases he : s.rtb.entry? i with
  | none =>
    show s.rtb.entry? j = _
    split
    · next h => rw [h, he]; rfl
    · rfl
  | some e =>
    show Rtb.entry? (State.rtb (if _ then _ else _)) j = _
    split
    · next hst =>
      refine (Rtb.entry?_modEntry ..).trans ?_
      rw [onGateOf_entry?]
      split
      · next h =>
        rw [h, he, Option.map_some, Option.map_some, Entry.released, if_pos hst]
      · rfl
    · next hst =>
      split
      · next h => rw [h, he, Option.map_some, Entry.released, if_neg hst]
      · rfl

end

section
variable {s : State} {l : List Slot}

theorem releaseEntries_entry? (hl : l.Nodup) (j : Slot) : (l.foldl releaseEntry s).rtb.entry? j =
    if j ∈ l then (s.rtb.entry? j).map Entry.released else s.rtb.entry? j := by
  induction l generalizing s with
  | nil => rfl
  | cons i l ih =>
    obtain ⟨hi, hl⟩ := List.nodup_cons.mp hl
    rw [List.foldl_cons, ih hl, releaseEntry_entry?]
    by_cases hj : j = i
    · subst hj
      simp [hi]
    · simp [hj]

theorem releaseEntries_gpm (hl : l.Nodup) :
    (l.foldl releaseEntry s).gpm = s.gpm.releaseGates (l.filterMap s.heldBack) := by
  induction l generalizing s with
  | nil => rfl
  | cons i l ih =>
    obtain ⟨hi, hl⟩ := List.nodup_cons.mp hl
    have hgates : l.filterMap (releaseEntry s i).heldBack = l.filterMap s.heldBack :=
      List.filterMap_congr fun j hj => by
        have hji : j ≠ i := fun e => hi (e ▸ hj)
        unfold State.heldBack
        rw [releaseEntry_entry?, if_neg hji]
    rw [List.foldl_cons, ih hl, hgates, releaseEntry_gpm]
    cases hg : s.heldBack i with
    | none => rw [List.filterMap_cons_none hg]; rfl
    | some g => rw [List.filterMap_cons_some hg]; rfl

end

/-- The gates of the held and admitted entries of a port, in the order of its arrival list (R137). -/
def State.heldBackGates (s : State) (p : Port) : List GateNo := (s.rtb.arrival[p]).filterMap s.heldBack

theorem heldBack_eq_some {s : State} {i : Slot} {g : GateNo} (h : s.heldBack i = some g) :
    ∃ e r, s.rtb.entry? i = some e ∧ (e.state = .waiting ∨ e.state = .admitted) ∧ e.gate = some r ∧ r.gate = g := by
  obtain ⟨e, he, hg⟩ := Option.bind_eq_some_iff.mp h
  split at hg
  · next hst =>
    obtain ⟨r, hr, hrg⟩ := Option.map_eq_some_iff.mp hg
    exact ⟨e, r, he, hst, hr, hrg⟩
  · exact nomatch hg

section
variable {s : State} (h : s.gatesOk) (p : Port)
include h

theorem releaseAll_entry? {i : Slot} {e : Entry} (he : s.rtb.entry? i = some e) : (releaseAll p s).rtb.entry? i =
    some (if e.port = p then e.released else e) := by
  show ((s.rtb.arrival[p]).foldl releaseEntry s).rtb.entry? i = _
  rw [releaseEntries_entry? (h.table.2 p).1, he]
  by_cases hp : e.port = p
  · rw [if_pos ((h.in_arrival p he).mpr hp), if_pos hp]
    rfl
  · rw [if_neg fun hi => hp ((h.in_arrival p he).mp hi), if_neg hp]

theorem releaseAll_entry_before {i : Slot} {f : Entry} (hf : (releaseAll p s).rtb.entry? i = some f) :
    ∃ e, s.rtb.entry? i = some e ∧ f = if e.port = p then e.released else e := by
  cases he : s.rtb.entry? i with
  | none =>
    have hnone : (releaseAll p s).rtb.entry? i = none := by
      show ((s.rtb.arrival[p]).foldl releaseEntry s).rtb.entry? i = none
      rw [releaseEntries_entry? (h.table.2 p).1, he]
      exact ite_self _
    exact nomatch hnone.symm.trans hf
  | some e =>
    rw [releaseAll_entry? h p he] at hf
    exact ⟨e, rfl, (Option.some.inj hf).symm⟩

theorem releaseAll_gpm : (releaseAll p s).gpm = s.gpm.releaseGates (s.heldBackGates p) :=
  releaseEntries_gpm (h.table.2 p).1

theorem State.gatesOk.mem_heldBackGates {i : Slot} {e : Entry} {r : GateRef} (he : s.rtb.entry? i = some e)
    (hr : e.gate = some r) :
    r.gate ∈ s.heldBackGates p ↔ e.port = p ∧ (e.state = .waiting ∨ e.state = .admitted) := by
  constructor
  · intro hg
    obtain ⟨j, hj, hgate⟩ := List.mem_filterMap.mp hg
    obtain ⟨x, q, hx, hst, hq, hqr⟩ := heldBack_eq_some hgate
    have hij : j = i := h.slot_of_gate (g := r.gate) (by rw [hx, heldGate_of_gate hq, hqr])
      (by rw [he, heldGate_of_gate hr])
    subst hij
    obtain rfl := Option.some.inj (he.symm.trans hx)
    exact ⟨(h.in_arrival p he).mp hj, hst⟩
  · rintro ⟨hp, hst⟩
    refine List.mem_filterMap.mpr ⟨i, (h.in_arrival p he).mpr hp, ?_⟩
    unfold State.heldBack
    rw [he]
    show (if _ then _ else _) = _
    rw [if_pos hst, hr]
    rfl

theorem State.gatesOk.heldBackGates_nodup : (s.heldBackGates p).Nodup :=
  (h.table.2 p).1.filterMap fun i j g hi hj => by
    obtain ⟨e, r, he, _, hr, hrg⟩ := heldBack_eq_some hi
    obtain ⟨f, q, hf, _, hq, hqg⟩ := heldBack_eq_some hj
    exact h.slot_of_gate (g := g) (by rw [he, heldGate_of_gate hr, hrg]) (by rw [hf, heldGate_of_gate hq, hqg])

theorem releaseAll_gatesOk : (releaseAll p s).gatesOk := by
  have hquiet := quiet_releaseAll p s
  have hgate (g : GateNo) : (releaseAll p s).gpm.gate g =
      if g ∈ s.heldBackGates p then (s.gpm.gate g).released else s.gpm.gate g := by
    rw [releaseAll_gpm h]
    exact Gpm.releaseGates_gate g
  have hbound (g : GateNo) : ((releaseAll p s).gpm.gate g).bound = (s.gpm.gate g).bound := by
    rw [hgate]
    split <;> rfl
  refine ⟨hquiet.rtbOk h.table, hquiet.listsOk h.lists, fun i f hf => ?_, fun i f r hf hr => ?_, fun g k hk => ?_,
    fun g hg => ?_⟩
  · obtain ⟨e, he, rfl⟩ := releaseAll_entry_before h p hf
    split
    · exact (h.own i e he).released
    · exact h.own i e he
  · obtain ⟨e, he, rfl⟩ := releaseAll_entry_before h p hf
    obtain ⟨hhash, hport, hsame⟩ := Entry.released_keeps e
    have hr : e.gate = some r := by
      split at hr
      · exact hsame ▸ hr
      · exact hr
    have hmem := h.mem_heldBackGates p he hr
    obtain ⟨kbound, kepoch, kmode⟩ := h.held i e r he hr
    rw [hgate]
    by_cases hp : e.port = p
    · rw [if_pos hp, hhash, hport]
      by_cases hst : e.state = .waiting ∨ e.state = .admitted
      · rw [if_pos (hmem.mpr ⟨hp, hst⟩), Entry.released, if_pos hst]
        exact ⟨kbound, kepoch, rfl⟩
      · rw [if_neg fun hm => hst (hmem.mp hm).2, Entry.released, if_neg hst]
        exact ⟨kbound, kepoch, kmode⟩
    · rw [if_neg hp, if_neg fun hm => hp (hmem.mp hm).1]
      exact ⟨kbound, kepoch, kmode⟩
  · rw [hbound] at hk
    obtain ⟨i, e, r, he, hhash, hport, hr, hrg⟩ := h.bound g k hk
    obtain ⟨ehash, eport, egate⟩ := Entry.released_keeps e
    refine ⟨i, _, r, releaseAll_entry? h p he, ?_⟩
    split
    · exact ⟨ehash.trans hhash, eport.trans hport, egate.trans hr, hrg⟩
    · exact ⟨hhash, hport, hr, hrg⟩
  · rw [hbound] at hg
    have hout : g ∉ s.heldBackGates p := fun hin => by
      obtain ⟨i, _, hi⟩ := List.mem_filterMap.mp hin
      obtain ⟨e, r, he, _, hr, rfl⟩ := heldBack_eq_some hi
      obtain ⟨kbound, _⟩ := h.held i e r he hr
      exact nomatch hg.symm.trans kbound
    rw [hgate, if_neg hout]
    exact h.unbound g hg

end

end Sys2Proof.Machine
end

section
/-! SUPPORT. Steps, ends and reports keep books and queues (R90 to R104, R110 to R116, R137, R138). -/

namespace Sys2Proof.Machine

section
variable {p : Port} {s : State}

/-! ### The drain phase (R99, R137) -/

theorem queueOk_of_empty {t : State} (hadu : t.aduAt p = ⟨[], []⟩) : t.queueOk p where
  order := by rw [hadu]; exact List.nil_sublist _
  length := by rw [hadu]; exact Nat.zero_le _
  marks := by rw [State.overdraftCount, hadu]; exact Nat.zero_le _
  admitted := by rw [State.admittedCount, hadu]; exact Nat.zero_le _

/-- The places after a port's collections have been emptied: none of its entries is held or admitted. -/
theorem placesOk_of_emptied {t : State} (h : s.placesOk) (hocc : ∀ i f, t.rtb.entry? i = some f → f.port = p →
      f.state.occursIn (t.prcAt p).state = true ∧ f.state ≠ .waiting ∧ f.state ≠ .admitted)
    (hothers : ∀ i q, q ≠ p → ∀ f, t.rtb.entry? i = some f ∧ f.port = q ↔ s.rtb.entry? i = some f ∧ f.port = q)
    (hprc : ∀ q, q ≠ p → t.prcAt q = s.prcAt q) (hadu : ∀ q, t.aduAt q = if q = p then ⟨[], []⟩ else s.aduAt q) :
    t.placesOk := by
  have hmember (q : Port) (st : EntryState) (hst : st = .waiting ∨ st = .admitted) (i : Slot) :
      (∃ e, t.rtb.entry? i = some e ∧ e.port = q ∧ e.state = st) ↔
        q ≠ p ∧ ∃ e, s.rtb.entry? i = some e ∧ e.port = q ∧ e.state = st := by
    by_cases hq : q = p
    · refine iff_of_false ?_ fun h => h.1 hq
      rintro ⟨e, he, hp, rfl⟩
      obtain ⟨_, hwait, hadm⟩ := hocc i e he (hp.trans hq)
      exact hst.elim hwait hadm
    · simp only [← and_assoc, hothers i q hq, hq, ne_eq, not_false_eq_true, true_and]
  refine ⟨fun i f hf => ?_, fun q => ?_, fun q => ?_⟩
  · by_cases hp : f.port = p
    · rw [hp]
      exact (hocc i f hf hp).1
    · rw [hprc f.port hp]
      exact h.occurs i f ((hothers i f.port hp f).mp ⟨hf, rfl⟩).1
  · obtain ⟨hnodup, hmem⟩ := h.waiting q
    rw [hadu]
    by_cases hq : q = p
    · rw [if_pos hq]
      refine ⟨List.nodup_nil, fun i => ?_⟩
      rw [hmember q .waiting (.inl rfl)]
      exact iff_of_false List.not_mem_nil fun h => h.1 hq
    · rw [if_neg hq]
      refine ⟨hnodup, fun i => ?_⟩
      rw [hmember q .waiting (.inl rfl), hmem]
      simp [hq]
  · obtain ⟨hnodup, hmem⟩ := h.admitted q
    rw [hadu]
    by_cases hq : q = p
    · rw [if_pos hq]
      refine ⟨List.nodup_nil, fun i => ?_⟩
      rw [hmember q .admitted (.inr rfl)]
      exact iff_of_false List.not_mem_nil fun h => h.1 hq
    · rw [if_neg hq]
      refine ⟨hnodup, fun i => ?_⟩
      rw [hmember q .admitted (.inr rfl), hmem]
      simp [hq]

theorem releaseAll_others (h : s.gatesOk) (i : Slot) (q : Port) (hq : q ≠ p) (f : Entry) :
    (releaseAll p s).rtb.entry? i = some f ∧ f.port = q ↔ s.rtb.entry? i = some f ∧ f.port = q := by
  constructor
  · rintro ⟨hf, hfq⟩
    obtain ⟨e, he, rfl⟩ := releaseAll_entry_before h p hf
    split at hfq
    · next hp =>
      obtain ⟨_, hport, _⟩ := Entry.released_keeps e
      exact absurd (hfq.symm.trans (hport.trans hp)) hq
    · next hp => exact ⟨by rw [if_neg hp]; exact he, by rw [if_neg hp]; exact hfq⟩
  · rintro ⟨hf, hfq⟩
    exact ⟨by rw [releaseAll_entry? h p hf, if_neg fun hp => hq (hfq.symm.trans hp)], hfq⟩

theorem returnAll_others (h : s.gatesOk) (i : Slot) (q : Port) (hq : q ≠ p) (f : Entry) :
    (returnAll p s).rtb.entry? i = some f ∧ f.port = q ↔ s.rtb.entry? i = some f ∧ f.port = q := by
  constructor
  · rintro ⟨hf, hfq⟩
    obtain ⟨e, he, rfl⟩ := returnAll_entry_before h p hf
    split at hfq
    · next hp => exact absurd (hfq.symm.trans hp) hq
    · next hp => exact ⟨by rw [if_neg hp]; exact he, by rw [if_neg hp]; exact hfq⟩
  · rintro ⟨hf, hfq⟩
    exact ⟨by rw [returnAll_entry? h p hf, if_neg fun hp => hq (hfq.symm.trans hp)], hfq⟩

theorem enterDrain_gates_entries : (enterDrain p s).gpm = (releaseAll p (s.enterPort p .drain)).gpm ∧
    (enterDrain p s).rtb = (releaseAll p (s.enterPort p .drain)).rtb ∧
    (enterDrain p s).adu = (releaseAll p (s.enterPort p .drain)).adu ∧ (enterDrain p s).pgs = s.pgs :=
  ⟨rfl, rfl, rfl, (quiet_enterDrain p s).pgs⟩

/-- A change of relief states leaves the agreement of entries and gates. -/
theorem gatesOk_modPrc (h : s.gatesOk) (f : PrcPort → PrcPort) : (s.modPrc p f).gatesOk :=
  ⟨h.table, h.lists, h.own, h.held, h.bound, h.unbound⟩

theorem gatesOk_enterPort (h : s.gatesOk) (st : PortState) : (s.enterPort p st).gatesOk := gatesOk_modPrc h _

theorem enterDrain_gatesOk (h : s.gatesOk) : (enterDrain p s).gatesOk :=
  gatesOk_modPrc (releaseAll_gatesOk (gatesOk_enterPort h .drain) p) _

theorem enterDrain_aduAt (q : Port) : (enterDrain p s).aduAt q = if q = p then ⟨[], []⟩ else s.aduAt q := by
  unfold enterDrain
  dsimp only
  rw [State.modPrc_aduAt, releaseAll_aduAt, State.enterPort_aduAt]

theorem Entry.released_state (e : Entry) : e.released.state ≠ .waiting ∧ e.released.state ≠ .admitted ∧
    (e.state.occursIn .relief = true → e.released.state.occursIn .drain = true) := by
  unfold Entry.released
  cases hst : e.state <;> simp [hst, EntryState.occursIn, PortState.hasEpisode]

theorem enterDrain_booksOk (h : s.booksOk) (hst : (s.prcAt p).state = .relief) : (enterDrain p s).booksOk := by
  obtain ⟨hgates, hplaces⟩ := State.booksOk_iff.mp h
  have hdrained := gatesOk_enterPort (p := p) hgates .drain
  refine State.booksOk_iff.mpr ⟨enterDrain_gatesOk hgates, ?_⟩
  refine placesOk_of_emptied (p := p) hplaces (fun i f hf hp => ?_) (releaseAll_others hdrained)
    (fun q hq => enterDrain_prcAt_ne p s hq) enterDrain_aduAt
  obtain ⟨e, he, rfl⟩ := releaseAll_entry_before hdrained p hf
  have hport : e.port = p := by
    split at hp
    · assumption
    · exact hp
  obtain ⟨hwait, hadm, hocc⟩ := e.released_state
  rw [if_pos hport, enterDrain_prcAt]
  refine ⟨hocc ?_, hwait, hadm⟩
  have hold := h.occurs (i := i) he
  rw [hport, hst] at hold
  exact hold

theorem keptAt_enterDrain (hst : (s.prcAt p).state = .relief) : KeptAt p s (enterDrain p s) where
  books h := enterDrain_booksOk h hst
  others h q hq := by
    have hdrained := gatesOk_enterPort (p := p) (State.booksOk_iff.mp h).1 .drain
    have hprc := enterDrain_prcAt_ne p s hq
    refine ⟨by rw [hprc], by rw [hprc], by rw [hprc], (quiet_enterDrain p s).pgs, ?_, ?_, fun i e he hp => ?_⟩
    · rw [enterDrain_aduAt, if_neg hq]
    · rw [(quiet_enterDrain p s).arrival]
    · exact ⟨e, ((releaseAll_others hdrained i q hq e).mpr ⟨he, hp⟩).1, .refl e⟩
  queue _ _ _ := queueOk_of_empty (by rw [enterDrain_aduAt, if_pos rfl])
  pgs := (quiet_enterDrain p s).pgs

theorem filledOk_of_not_relief {t : State} (h : (t.prcAt p).state ≠ .relief) : t.filledOk p := fun hr => absurd hr h

theorem enterDrain_filled : (enterDrain p s).filledOk p :=
  filledOk_of_not_relief (by rw [enterDrain_prcAt]; nofun)

theorem keptAt_endStep (byGuard : Bool) (hst : (s.prcAt p).state = .relief) : KeptAt p s (endStep p byGuard s) := by
  unfold endStep
  dsimp only
  split
  · exact keptAt_enterStep p s _ _
  · exact keptAt_enterDrain hst

theorem endStep_filled (byGuard : Bool) (h : s.booksOk) : (endStep p byGuard s).filledOk p := by
  unfold endStep
  dsimp only
  split
  · exact enterStep_filled p s _ _ h
  · exact enterDrain_filled

/-! ### The episode end (R102, R103, R138) -/

theorem returnAll_booksOk (h : s.booksOk) : (returnAll p s).booksOk := by
  obtain ⟨hgates, hplaces⟩ := State.booksOk_iff.mp h
  refine State.booksOk_iff.mpr ⟨returnAll_gatesOk hgates p, ?_⟩
  refine placesOk_of_emptied (p := p) hplaces (fun i f hf hp => ?_) (returnAll_others hgates)
    (fun q _ => returnAll_prcAt p s q) fun q => returnAll_aduAt p s q
  obtain ⟨e, he, rfl⟩ := returnAll_entry_before hgates p hf
  have hport : e.port = p := by
    split at hp
    · assumption
    · exact hp
  rw [if_pos hport]
  exact ⟨rfl, nofun, nofun⟩

theorem returnAll_allSeen (h : s.booksOk) : (returnAll p s).allSeen p := fun i f hf hp => by
  obtain ⟨e, he, rfl⟩ := returnAll_entry_before (State.booksOk_iff.mp h).1 p hf
  have hport : e.port = p := by
    split at hp
    · assumption
    · exact hp
  rw [if_pos hport]
  rfl

theorem keptAt_returnAll : KeptAt p s (returnAll p s) where
  books := returnAll_booksOk
  others h q hq := by
    have hgates := (State.booksOk_iff.mp h).1
    refine ⟨by rw [returnAll_prcAt], by rw [returnAll_prcAt], by rw [returnAll_prcAt], (quiet_returnAll p s).pgs, ?_, ?_,
      fun i e he hp => ?_⟩
    · rw [returnAll_aduAt, if_neg hq]
    · rw [(quiet_returnAll p s).arrival]
    · exact ⟨e, ((returnAll_others hgates i q hq e).mpr ⟨he, hp⟩).1, .refl e⟩
  queue _ _ _ := queueOk_of_empty (by rw [returnAll_aduAt, if_pos rfl])
  pgs := (quiet_returnAll p s).pgs

theorem keptAt_closeEpisode (o : EpisodeOutcome) : KeptAt p s (closeEpisode p o s) := by
  unfold closeEpisode
  dsimp only
  refine KeptAt.trans ?_ ((alike_raiseEpisode _ p _ _).keptAt p)
  refine KeptAt.trans ?_ ((alike_ern _ _).keptAt p)
  refine KeptAt.trans ?_ (keptAt_modPrc_same p _ _ rfl)
  refine KeptAt.trans ?_ ((alike_modCru _ p _).keptAt p)
  exact (keptAt_modPrc_same p s _ rfl).trans keptAt_returnAll

theorem closeEpisode_rtb (o : EpisodeOutcome) : (closeEpisode p o s).rtb =
    (returnAll p (s.modEpisode p fun e => { e with clock := e.clock.halt s.now })).rtb := rfl

theorem closeEpisode_allSeen (o : EpisodeOutcome) (h : s.booksOk) : (closeEpisode p o s).allSeen p := by
  have hclock := keptAt_modPrc_same p s
    (fun q => { q with episode := { q.episode with clock := q.episode.clock.halt s.now } }) rfl
  unfold State.allSeen
  rw [closeEpisode_rtb]
  exact returnAll_allSeen (hclock.books h)

/-- A port whose entries are all SEEN enters a state that is not RELIEF. -/
theorem keptAt_enterPort_seen (st : PortState) (hseen : s.allSeen p) : KeptAt p s (s.enterPort p st) :=
  keptAt_modPrc p s _ fun _ i e he hp => by rw [hseen i e he hp]; rfl

theorem enterPort_filled {st : PortState} (hst : st ≠ .relief) : (s.enterPort p st).filledOk p :=
  filledOk_of_not_relief (by rw [State.prcAt_enterPort]; exact hst)

theorem keptAt_toCooldown (hseen : s.allSeen p) : KeptAt p s (toCooldown p s) ∧ (toCooldown p s).filledOk p := by
  unfold toCooldown
  split
  · exact ⟨keptAt_enterPort_seen .idle hseen, enterPort_filled nofun⟩
  · refine ⟨(keptAt_enterPort_seen .cooldown hseen).trans (keptAt_modPrc_same p _ _ rfl), filledOk_of_not_relief ?_⟩
    rw [State.prcAt_modPrc_self, State.prcAt_enterPort]
    nofun

/-- A standby starts, with its notice. -/
theorem keptAt_standbyStart (q : ProgNo) (hseen : s.allSeen p) :
    KeptAt p s ((openEpisode p .manual q s).raiseEpisode .standbyStart p q.val) :=
  (keptAt_openEpisode .manual q hseen).trans ((alike_raiseEpisode _ p _ _).keptAt p)

theorem standbyStart_filled (q : ProgNo) (h : s.booksOk) (hseen : s.allSeen p) :
    ((openEpisode p .manual q s).raiseEpisode .standbyStart p q.val).filledOk p :=
  (alike_raiseEpisode _ p _ _).filledOk (openEpisode_filled .manual q h hseen)

theorem keptAt_clearStandby : KeptAt p s (clearStandby p s) := keptAt_modPrc_same p s _ rfl

theorem afterEnd_kept (o : EpisodeOutcome) (slot : Option ProgNo) (h : s.booksOk) (hseen : s.allSeen p) :
    KeptAt p s (afterEnd p o slot s) ∧ (afterEnd p o slot s).filledOk p := by
  have hclear : KeptAt p s (clearStandby p s) := keptAt_clearStandby
  have hseen' : (clearStandby p s).allSeen p := hseen
  have hcool := keptAt_toCooldown hseen'
  have henter (st : PortState) (hst : st ≠ .relief) : KeptAt p s ((clearStandby p s).enterPort p st) ∧
      ((clearStandby p s).enterPort p st).filledOk p :=
    ⟨hclear.trans (keptAt_enterPort_seen st hseen'), enterPort_filled hst⟩
  have hstart (q : ProgNo) : KeptAt p s ((openEpisode p .manual q (clearStandby p s)).raiseEpisode .standbyStart p q.val) ∧
      ((openEpisode p .manual q (clearStandby p s)).raiseEpisode .standbyStart p q.val).filledOk p :=
    ⟨hclear.trans (keptAt_standbyStart q hseen'), standbyStart_filled q (hclear.books h) hseen'⟩
  have hcooled : KeptAt p s (toCooldown p (clearStandby p s)) ∧ (toCooldown p (clearStandby p s)).filledOk p :=
    ⟨hclear.trans hcool.1, hcool.2⟩
  unfold afterEnd
  dsimp only
  split
  · split
    · obtain ⟨hkept, hfilled⟩ := henter .disarmed nofun
      exact ⟨hkept.trans ((alike_raiseEpisode _ p _ _).keptAt p), (alike_raiseEpisode _ p _ _).filledOk hfilled⟩
    · split
      · exact hstart _
      · exact hcooled
  · split
    · exact hstart _
    · exact hcooled
  · exact hcooled
  · exact hcooled
  · exact henter .disarmed nofun
  · exact henter .idle nofun
  · exact henter .idle nofun
  · exact henter .idle nofun

theorem keptAt_endEpisode (o : EpisodeOutcome) (h : s.booksOk) :
    KeptAt p s (endEpisode p o s) ∧ (endEpisode p o s).filledOk p := by
  have hclose := keptAt_closeEpisode (p := p) (s := s) o
  obtain ⟨hkept, hfilled⟩ := afterEnd_kept o (s.prcAt p).standby (hclose.books h) (closeEpisode_allSeen o h)
  exact ⟨hclose.trans hkept, hfilled⟩

theorem kept_endEpisode (o : EpisodeOutcome) : Kept s (endEpisode p o s) :=
  KeptAt.kept (fun h => (keptAt_endEpisode o h).1) (quiet_endEpisode p o s).pgs fun h _ => (keptAt_endEpisode o h).2

/-! ### Accepted reports -/

/-- A port without an episode enters a state without one. -/
theorem kept_enterPort (st : PortState) (hold : (s.prcAt p).state.hasEpisode = false) (hst : st ≠ .relief) :
    Kept s (s.enterPort p st) :=
  KeptAt.kept (fun h => keptAt_enterPort_seen st (h.allSeen hold)) rfl fun _ _ => enterPort_filled hst

theorem kept_modPrc_same (f : PrcPort → PrcPort) (hstate : (f (s.prcAt p)).state = (s.prcAt p).state)
    (hprogram : (f (s.prcAt p)).episode.program = (s.prcAt p).episode.program)
    (hindex : (f (s.prcAt p)).episode.stepIndex = (s.prcAt p).episode.stepIndex) : Kept s (s.modPrc p f) :=
  (alike_modPrc s p f hstate hprogram hindex).kept

theorem kept_reportStages (l d : Nat) (hst : (s.prcAt p).state = .relief) : Kept s (reportStages p l d s) := by
  have hcredit : Alike s (distribute p (creditReport p l d s)) := (alike_creditReport s p l d).trans (alike_distribute _ p)
  have hstate := (hcredit.ports p).1.trans hst
  unfold reportStages
  dsimp only
  split
  · exact hcredit.kept.trans (KeptAt.kept (fun _ => keptAt_endStep false hstate) (quiet_endStep p false _).pgs
      fun h _ => endStep_filled false h)
  · exact hcredit.kept

theorem kept_reportToPrc (l d : Nat) : Kept s (reportToPrc p l d s) := by
  have hstale : Alike s (restartStale p s) := alike_restartStale s p
  have hstate := (hstale.ports p).1
  unfold reportToPrc
  dsimp only
  split
  · exact .refl s
  · next hst =>
    split
    · have henter := kept_enterPort (p := p) (s := s) .watch (by rw [hst]; rfl) nofun
      exact henter.trans (kept_modPrc_same (fun x : PrcPort =>
        { x with
          qualified := false
          debounce := .startAt s.now x.config.td
          stale := .startAt s.now x.config.ts }) rfl rfl rfl)
    · exact .refl s
  · next hst =>
    split
    · exact hstale.kept.trans (kept_enterPort .idle (by rw [hstate, hst]; rfl) nofun)
    · exact hstale.kept.trans kept_checkOpening
  · next hst => exact hstale.kept.trans (kept_reportStages l d (hstate.trans hst))
  · exact hstale.kept
  · split
    · exact hstale.kept.trans (kept_endEpisode .completed)
    · exact hstale.kept
  · exact .refl s

theorem kept_takeReport (seq cells : BitVec 16) (d : BitVec 32) : Kept s (takeReport p seq cells d s) := by
  unfold takeReport acceptReport
  dsimp only
  split
  · exact (alike_modOev s p _).kept.trans (kept_reportToPrc _ _)
  · split
    · exact (alike_modOev s p _).kept.trans (kept_reportToPrc _ _)
    · exact (alike_modOev s p _).kept

end

end Sys2Proof.Machine
end

section
/-! SUPPORT. Entries created, arriving, bypassed and removed keep books and queues (R43, R45, R46, R49, R53 to R55, R128,
R134). -/

namespace Sys2Proof.Machine

/-! ### An arrival list by bands -/

/-- A list of slots cut by bands, band 0 first. -/
def bandSort (f : Slot → Nat) (l : List Slot) : List Slot := (List.range 4).flatMap fun b => l.filter fun i => f i == b

theorem bandArrival_eq (s : State) (p : Port) : s.bandArrival p = bandSort s.bandOf s.rtb.arrival[p] := rfl

theorem bandSort_congr {f g : Slot → Nat} {l : List Slot} (h : ∀ i ∈ l, f i = g i) : bandSort f l = bandSort g l :=
  congrArg (fun k => List.flatMap k (List.range 4)) (funext fun b => List.filter_congr fun i hi => by rw [h i hi])

theorem bandSort_filter (f : Slot → Nat) (l : List Slot) (P : Slot → Bool) :
    bandSort f (l.filter P) = (bandSort f l).filter P := by
  unfold bandSort
  rw [List.filter_flatMap]
  refine congrArg (fun k => List.flatMap k (List.range 4)) (funext fun b => ?_)
  rw [List.filter_filter, List.filter_filter]
  exact List.filter_congr fun i _ => Bool.and_comm ..

/-- A slot at the end of the list stands behind its band, ahead of every other band. -/
theorem bandSort_concat {f : Slot → Nat} {i : Slot} (hi : f i < 4) (l : List Slot) :
    ∃ a b, bandSort f l = a ++ b ∧ bandSort f (l ++ [i]) = a ++ i :: b ∧
      (∀ j ∈ a, f j ≤ f i) ∧ ∀ j ∈ b, f i < f j := by
  have hsplit : List.range 4 = List.range (f i) ++ f i :: (List.range (3 - f i)).map (f i + 1 + ·) := by
    have h4 : 4 = (f i + 1) + (3 - f i) := by omega
    conv_lhs => rw [h4]
    rw [List.range_add, List.range_succ, List.append_assoc]
    rfl
  have hother (b : Nat) (hb : b ≠ f i) : (l ++ [i]).filter (fun j => f j == b) = l.filter fun j => f j == b := by
    rw [List.filter_append, List.filter_cons_of_neg (by simpa using Ne.symm hb), List.filter_nil, List.append_nil]
  have hown : (l ++ [i]).filter (fun j => f j == f i) = (l.filter fun j => f j == f i) ++ [i] := by
    rw [List.filter_append, List.filter_cons_of_pos (by simp), List.filter_nil]
  refine ⟨(List.range (f i)).flatMap (fun b => l.filter fun j => f j == b) ++ l.filter (fun j => f j == f i),
    ((List.range (3 - f i)).map (f i + 1 + ·)).flatMap fun b => l.filter fun j => f j == b, ?_, ?_, ?_, ?_⟩
  · unfold bandSort
    rw [hsplit, List.flatMap_append, List.flatMap_cons, List.append_assoc]
  · have hlow : (List.range (f i)).flatMap (fun b => (l ++ [i]).filter fun j => f j == b) =
        (List.range (f i)).flatMap fun b => l.filter fun j => f j == b :=
      List.flatMap_congr fun b hb => hother b (by have := List.mem_range.mp hb; omega)
    have hhigh : ((List.range (3 - f i)).map (f i + 1 + ·)).flatMap (fun b => (l ++ [i]).filter fun j => f j == b) =
        ((List.range (3 - f i)).map (f i + 1 + ·)).flatMap fun b => l.filter fun j => f j == b :=
      List.flatMap_congr fun b hb => hother b (by obtain ⟨c, _, rfl⟩ := List.mem_map.mp hb; omega)
    unfold bandSort
    rw [hsplit, List.flatMap_append, List.flatMap_cons, hlow, hown, hhigh]
    simp only [List.append_assoc, List.cons_append, List.nil_append]
  · intro j hj
    rcases List.mem_append.mp hj with hj | hj
    · obtain ⟨b, hb, hj⟩ := List.mem_flatMap.mp hj
      have hband := (List.mem_filter.mp hj).2
      rw [beq_iff_eq] at hband
      have := List.mem_range.mp hb
      omega
    · have hband := (List.mem_filter.mp hj).2
      rw [beq_iff_eq] at hband
      exact hband.le
  · intro j hj
    obtain ⟨b, hb, hj⟩ := List.mem_flatMap.mp hj
    obtain ⟨c, _, rfl⟩ := List.mem_map.mp hb
    have hband := (List.mem_filter.mp hj).2
    rw [beq_iff_eq] at hband
    omega

/-- A sublist of two runs of bands, cut at the same band. -/
theorem sublist_of_bands {f : Slot → Nat} {n : Nat} {a b x y : List Slot} (h : (x ++ y).Sublist (a ++ b))
    (ha : ∀ j ∈ a, f j ≤ n) (hb : ∀ j ∈ b, n < f j) (hx : ∀ j ∈ x, f j ≤ n) (hy : ∀ j ∈ y, n < f j) :
    x.Sublist a ∧ y.Sublist b := by
  have hlow := h.filter fun j => decide (f j ≤ n)
  have hhigh := h.filter fun j => decide (n < f j)
  rw [List.filter_append, List.filter_append, List.filter_eq_self.mpr (by simpa using hx),
    List.filter_eq_nil_iff.mpr (by simpa using hy), List.filter_eq_self.mpr (by simpa using ha),
    List.filter_eq_nil_iff.mpr (by simpa using hb), List.append_nil, List.append_nil] at hlow
  rw [List.filter_append, List.filter_append, List.filter_eq_nil_iff.mpr (by simpa using hx),
    List.filter_eq_self.mpr (by simpa using hy), List.filter_eq_nil_iff.mpr (by simpa using ha),
    List.filter_eq_self.mpr (by simpa using hb), List.nil_append, List.nil_append] at hhigh
  exact ⟨hlow, hhigh⟩

/-- A member that comes last by arrival joins a queue in order, which stays in order (R123). -/
theorem placeInQueue_sublist {s : State} {i : Slot} {q l : List Slot} (hq : q.Sublist (bandSort s.bandOf (l ++ [i])))
    (hout : i ∉ q) : (placeInQueue s i q).Sublist (bandSort s.bandOf (l ++ [i])) := by
  obtain ⟨a, b, hl, hli, ha, hb⟩ := bandSort_concat (s.bandOf_lt i) l
  have hwithout : q.Sublist (a ++ b) := by
    have hfilter := hq.filter fun j => decide (j ≠ i)
    rw [List.filter_eq_self.mpr (by simpa using fun j hj (e : j = i) => hout (e ▸ hj)), hli, List.filter_append,
      List.filter_cons_of_neg (by simp)] at hfilter
    exact hfilter.trans (List.filter_sublist.append List.filter_sublist)
  obtain ⟨x, y, rfl, hplaced, hx, hy⟩ := placeInQueue_split s i q
  have hsorted : (a ++ b).Pairwise fun j k => s.bandOf j ≤ s.bandOf k := by
    rw [← hl]
    refine List.pairwise_flatMap.mpr ⟨fun b _ => List.pairwise_of_forall_mem_list fun j hj k hk => ?_, ?_⟩
    · simp only [List.mem_filter, beq_iff_eq] at hj hk
      omega
    · refine List.pairwise_lt_range.imp fun {a b} hab j hj k hk => ?_
      simp only [List.mem_filter, beq_iff_eq] at hj hk
      omega
  obtain ⟨hxa, hyb⟩ := sublist_of_bands hwithout ha hb hx (hy (hsorted.sublist hwithout))
  rw [hplaced, hli]
  exact hxa.append (hyb.cons_cons i)

/-! ### An entry is created (R45) -/

section
variable {i : Slot} {h : BitVec 32} {p : Port} {ing : BitVec 6} {srv : BitVec 16} {s : State}
  (hi : s.rtb.entry? i = none)
include hi

theorem createEntry_others {q : Port} (hq : q ≠ p) : PortSame q s (createEntry i h p ing srv s) where
  state := rfl
  program := rfl
  index := rfl
  pgs := rfl
  adu := rfl
  arrival := modAt_get_ne _ _ _ _ hq
  entries j e he _ := by
    have hj : j ≠ i := by
      rintro rfl
      exact nomatch hi.symm.trans he
    exact ⟨e, by rw [createEntry_entry? _ _ _ _ _ _ hi, if_neg hj]; exact he, .refl e⟩

theorem createEntry_bandArrival (hb : s.booksOk) :
    (s.bandArrival p).Sublist ((createEntry i h p ing srv s).bandArrival p) := by
  have harrival : (createEntry i h p ing srv s).rtb.arrival[p] = s.rtb.arrival[p] ++ [i] := modAt_get_self ..
  have hbands : ∀ j ∈ s.rtb.arrival[p], s.bandOf j = (createEntry i h p ing srv s).bandOf j := fun j hj => by
    obtain ⟨e, he, _⟩ := ((hb.table.2 p).2 j).mp hj
    have hji : j ≠ i := by
      rintro rfl
      exact nomatch hi.symm.trans he
    unfold State.bandOf
    rw [createEntry_entry? _ _ _ _ _ _ hi, if_neg hji]
  obtain ⟨a, b, hl, hli, _⟩ := bandSort_concat ((createEntry i h p ing srv s).bandOf_lt i) s.rtb.arrival[p]
  rw [bandArrival_eq, bandArrival_eq, harrival, bandSort_congr hbands, hl, hli]
  exact (List.Sublist.refl a).append (List.sublist_cons_self i b)

theorem keptAt_createEntry (hl : s.rtb.lookup h p = none) : KeptAt p s (createEntry i h p ing srv s) where
  books hb := by
    have hentry := createEntry_entry? i h p ing srv s hi
    have hmember (q : Port) (st : EntryState) (hst : st ≠ .seen) (j : Slot) :
        (∃ e, (createEntry i h p ing srv s).rtb.entry? j = some e ∧ e.port = q ∧ e.state = st) ↔
          ∃ e, s.rtb.entry? j = some e ∧ e.port = q ∧ e.state = st := by
      rw [hentry]
      by_cases hj : j = i
      · rw [if_pos hj, hj, hi]
        refine iff_of_false ?_ nofun
        rintro ⟨e, he, _, rfl⟩
        obtain rfl := Option.some.inj he
        exact hst rfl
      · rw [if_neg hj]
    exact {
      table := createEntry_rtbOk hi hl hb.table
      lists := hb.lists
      entries := fun j e he => by
        rw [hentry] at he
        split at he
        · obtain rfl := Option.some.inj he
          exact ⟨⟨iff_of_false nofun nofun, iff_of_false nofun nofun, iff_of_false nofun nofun, fun hn => absurd rfl hn⟩,
            rfl⟩
        · exact hb.entries j e he
      held := fun j e r he hr => by
        rw [hentry] at he
        split at he
        · obtain rfl := Option.some.inj he
          exact nomatch hr
        · exact hb.held j e r he hr
      bound := fun g k hk => by
        obtain ⟨j, e, r, he, hrest⟩ := hb.bound g k hk
        have hj : j ≠ i := by
          rintro rfl
          exact nomatch hi.symm.trans he
        exact ⟨j, e, r, by rw [hentry, if_neg hj]; exact he, hrest⟩
      unbound := hb.unbound
      waiting := fun q => ⟨(hb.waiting q).1, fun j => ((hb.waiting q).2 j).trans (hmember q .waiting nofun j).symm⟩
      admitted := fun q => ⟨(hb.admitted q).1, fun j => ((hb.admitted q).2 j).trans (hmember q .admitted nofun j).symm⟩ }
  others _ _ hq := createEntry_others hi hq
  queue hb _ hq := by
    refine ⟨hq.order.trans (createEntry_bandArrival hi hb), hq.length, ?_, ?_⟩
    all_goals
      have hmarks : (createEntry i h p ing srv s).overdraftCount p = s.overdraftCount p := by
        refine List.countP_congr fun j hj => ?_
        obtain ⟨e, he, _⟩ := ((hb.admitted p).2 j).mp hj
        have hji : j ≠ i := by
          rintro rfl
          exact nomatch hi.symm.trans he
        unfold State.marked
        rw [createEntry_entry? _ _ _ _ _ _ hi, if_neg hji]
      rw [hmarks]
    · exact hq.marks
    · exact hq.admitted
  pgs := rfl

end

/-! ### An entry arrives (R46, R130, R131) -/

section
variable {p : Port} {i : Slot} {s : State} {e : Entry} {l : List Slot}

theorem atEntry_placeArrival : AtEntry p i s (placeArrival p i s) := by
  unfold placeArrival holdOrBypass
  split
  · exact atEntry_admitNew p i s
  · split
    · exact atEntry_hold p i s
    · exact atEntry_bypass p i s

theorem keptAt_placeArrival (he : s.rtb.entry? i = some e) (hp : e.port = p) (hseen : e.state = .seen)
    (hel : e.eligible = true) (hst : (s.prcAt p).state = .relief ∨ (s.prcAt p).state = .paused)
    (hlast : s.rtb.arrival[p] = l ++ [i]) : KeptAt p s (placeArrival p i s) where
  books hb := by
    unfold placeArrival
    split
    · exact admitNew_books hb he hp hseen hel hst
    · exact holdOrBypass_books hb he hp hseen hel hst
  others _ q hq := atEntry_placeArrival.portSame hq fun x hx => by
    obtain rfl := Option.some.inj (he.symm.trans hx)
    exact hp
  queue hb hpgs hq := by
    obtain ⟨hwaits, hout⟩ := hb.seen_out he hp hseen
    have hat : AtEntry p i s (placeArrival p i s) := atEntry_placeArrival
    have hadmitted := hq.admitted
    have hsame (had : (placeArrival p i s).aduAt p = s.aduAt p) : (placeArrival p i s).queueOk p :=
      ⟨by rw [had, hat.quiet.bandArrival]; exact hq.order, by rw [had]; exact hq.length,
        by rw [hat.overdraftCount_of_out (by rw [had]) hout]; exact hq.marks,
        by rw [hat.overdraftCount_of_out (by rw [had]) hout, State.admittedCount, had]; exact hadmitted⟩
    by_cases ha : s.admitsArrival p
    · have heq : placeArrival p i s = admitNew p i s := placeArrival_admits ha
      rcases admitNew_placed (p := p) he with ⟨f, hf, hmark, had⟩ | had
      · rw [← heq] at hf had
        obtain ⟨_, hk, _⟩ := ha
        have hwidth := currentStep_width hpgs p
        have hmarks := hat.overdraftCount_of_joined (by rw [had]) hout hf hmark
        refine ⟨by rw [had, hat.quiet.bandArrival]; exact hq.order, by rw [had]; exact hq.length,
          by rw [hmarks]; exact hq.marks, ?_⟩
        rw [hmarks, State.admittedCount, had]
        show ((s.aduAt p).admitted ++ [i]).length ≤ _
        rw [List.length_append]
        exact (Nat.succ_le_of_lt hk).trans (hwidth.trans (Nat.le_add_right _ _))
      · exact hsame (heq ▸ had)
    · by_cases hlen : (s.aduAt p).waitQ.length < 256
      · have heq : placeArrival p i s = hold p i s := placeArrival_holds ha hlen
        rcases hold_placed (p := p) he with had | had
        · rw [← heq] at had
          have hadm : ((placeArrival p i s).aduAt p).admitted = (s.aduAt p).admitted := by rw [had]
          have hmarks := hat.overdraftCount_of_out hadm hout
          refine ⟨?_, ?_, by rw [hmarks]; exact hq.marks, by rw [hmarks, State.admittedCount, hadm]; exact hadmitted⟩
          · rw [had, hat.quiet.bandArrival, bandArrival_eq, hlast]
            refine placeInQueue_sublist ?_ hwaits
            have horder := hq.order
            rw [bandArrival_eq, hlast] at horder
            exact horder
          · rw [had]
            exact (placeInQueue_perm s i _).length_eq ▸ hlen
        · exact hsame (heq ▸ had)
      · have heq : placeArrival p i s = bypass p i s := placeArrival_bypasses ha (Nat.not_lt.mp hlen)
        obtain ⟨hgate, _⟩ := (hb.entryOk he).bare (by rw [hseen]; rfl)
        obtain ⟨_, had, _⟩ := bypass_unplaced (p := p) he hgate hwaits
        exact hsame (heq ▸ had)
  pgs := (quiet_placeArrival p i s).pgs

theorem keptAt_arrive (he : s.rtb.entry? i = some e) (hp : e.port = p) (hseen : e.state = .seen)
    (hel : e.eligible = true) (hst : (s.prcAt p).state = .relief ∨ (s.prcAt p).state = .paused)
    (hlast : s.rtb.arrival[p] = l ++ [i]) : KeptAt p s (arrive p i s) := by
  have hplace : KeptAt p (takeEntry i s) (placeArrival p i (takeEntry i s)) :=
    keptAt_placeArrival (takeEntry_entry he) hp hseen hel hst hlast
  exact ((((alike_takeEntry s i).keptAt p).trans hplace).trans (keptAt_refill p _)).trans
    ((alike_rerateIfChanged _ p _).keptAt p)

theorem arrive_filled (h : s.booksOk) (he : s.rtb.entry? i = some e) (hp : e.port = p) (hseen : e.state = .seen)
    (hel : e.eligible = true) (hst : (s.prcAt p).state = .relief ∨ (s.prcAt p).state = .paused)
    (hlast : s.rtb.arrival[p] = l ++ [i]) : (arrive p i s).filledOk p := by
  have hplace : KeptAt p (takeEntry i s) (placeArrival p i (takeEntry i s)) :=
    keptAt_placeArrival (takeEntry_entry he) hp hseen hel hst hlast
  exact (alike_rerateIfChanged _ p _).filledOk
    (refill_filled p _ ((((alike_takeEntry s i).keptAt p).trans hplace).books h))

end

/-! ### A Sighting (R44 to R48) -/

section
variable {h : BitVec 32} {p : Port} (ing : BitVec 6) (srv : BitVec 16) {s : State}

theorem kept_learn (hl : s.rtb.lookup h p = none) : Kept s (learn h p ing srv s) := by
  unfold learn
  split
  · exact .refl s
  · next i hi =>
    have hempty : s.rtb.entry? i = none := by simpa using (find?_finRange_eq_some.mp hi).1
    have hcreate : KeptAt p s (createEntry i h p ing srv s) := keptAt_createEntry hempty hl
    have hentry : (createEntry i h p ing srv s).rtb.entry? i = some (s.created h p ing srv) := by
      rw [createEntry_entry? _ _ _ _ _ _ hempty, if_pos rfl]
    have hlast : (createEntry i h p ing srv s).rtb.arrival[p] = s.rtb.arrival[p] ++ [i] := modAt_get_self ..
    have hfilled : s.filledOk p → (createEntry i h p ing srv s).filledOk p := id
    have hkept : Kept s (createEntry i h p ing srv s) := KeptAt.kept (fun _ => hcreate) rfl fun _ => hfilled
    dsimp only
    split
    · next hel =>
      by_cases hst : (s.prcAt p).state = .relief ∨ (s.prcAt p).state = .paused
      · have hclosed : (createEntry i h p ing srv s).openingHolds p = false :=
          openingHolds_of_not_watch p (createEntry i h p ing srv s) (by
            show (s.prcAt p).state ≠ .watch
            rcases hst with hst | hst <;> rw [hst] <;> nofun)
        rw [handOver_arrives i p (createEntry i h p ing srv s) _ hst hclosed]
        have harrive : KeptAt p (createEntry i h p ing srv s) (arrive p i (createEntry i h p ing srv s)) :=
          keptAt_arrive hentry rfl rfl hel hst hlast
        exact hkept.trans (KeptAt.kept (fun _ => harrive) harrive.pgs fun hb _ =>
          arrive_filled hb hentry rfl rfl hel hst hlast)
      · unfold handOver
        dsimp only
        rw [if_neg hst]
        exact hkept.trans kept_checkOpening
    · exact hkept

end

end Sys2Proof.Machine
end

section
/-! SUPPORT. Entries that leave their place, by a Flow End, by aging, by eviction or by a bypass, keep books and queues
(R43, R47, R49, R52 to R55, R128, R134). -/

namespace Sys2Proof.Machine

section
variable {p : Port} {i : Slot} {s t : State} {e : Entry} {o : Option Entry}

/-! ### The queues of an entry that lets go -/

theorem LetsGo.overdraftCount (m : LetsGo p i e o s t) (h : s.booksOk) :
    t.overdraftCount p = (s.overdraftCount p) - if i ∈ (s.aduAt p).admitted ∧ s.marked i = true then 1 else 0 := by
  have hsame : t.overdraftCount p = ((s.aduAt p).admitted.erase i).countP s.marked := by
    unfold State.overdraftCount
    rw [m.admitted]
    refine List.countP_congr fun j hj => ?_
    have hji : j ≠ i := ((h.admitted p).1.mem_erase_iff.mp hj).1
    unfold State.marked
    rw [m.others j hji]
  rw [hsame, List.countP_erase]
  rfl

theorem LetsGo.queueOk (m : LetsGo p i e o s t) (h : s.booksOk) (hq : s.queueOk p)
    (hband : ((s.aduAt p).waitQ.erase i).Sublist (t.bandArrival p)) : t.queueOk p := by
  have hmarks := m.overdraftCount h
  have hbefore := hq.marks
  have hadmitted := hq.admitted
  refine ⟨by rw [m.waitQ]; exact hband, ?_, by omega, ?_⟩
  · rw [m.waitQ]
    exact (List.erase_sublist.length_le).trans hq.length
  · unfold State.admittedCount at hadmitted ⊢
    rw [hmarks, m.admitted, List.length_erase]
    split
    · next hin =>
      have hpos : 0 < (s.aduAt p).admitted.length := List.length_pos_of_mem hin
      split <;> omega
    · next hout =>
      rw [if_neg fun hm => hout hm.1]
      exact hadmitted

theorem LetsGo.filledOk (m : LetsGo p i e o s t) (hstep : t.currentStep p = s.currentStep p)
    (hout : i ∉ (s.aduAt p).admitted) (hf : s.filledOk p) : t.filledOk p := by
  intro hr
  rw [m.states] at hr
  rw [hstep, State.admittedCount, m.admitted, List.erase_of_not_mem hout, m.waitQ]
  exact (hf hr).imp_right fun hnil => by rw [hnil]; rfl

/-! ### Removal (R43) -/

theorem bandArrival_removed (h : s.booksOk) (harr : t.rtb.arrival[p] = (s.rtb.arrival[p]).erase i)
    (hothers : ∀ j, j ≠ i → t.rtb.entry? j = s.rtb.entry? j) (hq : (s.aduAt p).waitQ.Sublist (s.bandArrival p)) :
    ((s.aduAt p).waitQ.erase i).Sublist (t.bandArrival p) := by
  obtain ⟨hnodup, _⟩ := h.table.2 p
  have hbands : ∀ j ∈ (s.rtb.arrival[p]).erase i, t.bandOf j = s.bandOf j := fun j hj => by
    unfold State.bandOf
    rw [hothers j (hnodup.mem_erase_iff.mp hj).1]
  rw [bandArrival_eq, harr, bandSort_congr hbands, hnodup.erase_eq_filter, bandSort_filter,
    (h.waiting p).1.erase_eq_filter]
  exact hq.filter _

theorem removeEntry_others {q : Port} (hq : q ≠ p) (he : s.rtb.entry? i = some e) (hp : e.port = p) :
    PortSame q s (s.removeEntry i) where
  state := rfl
  program := rfl
  index := rfl
  pgs := rfl
  adu := rfl
  arrival := by
    show (s.rtb.remove i).arrival[q] = _
    unfold Rtb.remove
    rw [he]
    exact modAt_get_ne _ _ _ _ (hp ▸ hq)
  entries j f hf hfq := by
    have hj : j ≠ i := by
      rintro rfl
      obtain rfl := Option.some.inj (he.symm.trans hf)
      exact hq (hfq.symm.trans hp)
    refine ⟨f, ?_, .refl f⟩
    show (s.rtb.remove i).entry? j = _
    rw [Rtb.remove_entry?, if_neg hj]
    exact hf

theorem removeEntry_arrival (he : s.rtb.entry? i = some e) (hp : e.port = p) :
    (s.removeEntry i).rtb.arrival[p] = (s.rtb.arrival[p]).erase i := by
  show (s.rtb.remove i).arrival[p] = _
  unfold Rtb.remove
  rw [he, ← hp]
  exact modAt_get_self ..

theorem freeGateOf_rest : freeGateOf i s = { s with
    gpm := (freeGateOf i s).gpm, rtb := { s.rtb with table := (freeGateOf i s).rtb.table } } := by
  unfold freeGateOf
  split <;> rfl

/-- An entry whose gate is freed and that is taken out of its collections and its table. -/
def dropEntry (p : Port) (i : Slot) (f : AduPort → AduPort) (g : Episode → Episode) (s : State) : State :=
  (((freeGateOf i s).modAdu p f).modEpisode p g).removeEntry i

theorem dropEntry_letsGo (f : AduPort → AduPort) (g : Episode → Episode) (he : s.rtb.entry? i = some e)
    (hf : f (s.aduAt p) = ⟨(s.aduAt p).waitQ.erase i, (s.aduAt p).admitted.erase i⟩) :
    LetsGo p i e none s (dropEntry p i f g s) := by
  have hadu : (freeGateOf i s).aduAt = s.aduAt := by rw [freeGateOf_rest]; rfl
  have hentry (j : Slot) : (dropEntry p i f g s).rtb.entry? j = if j = i then none else s.rtb.entry? j := by
    show ((freeGateOf i s).rtb.remove i).entry? j = _
    rw [Rtb.remove_entry?]
    split
    · rfl
    · next hj => rw [freeGateOf_entry?, if_neg hj]
  have hown : (dropEntry p i f g s).aduAt p = ⟨(s.aduAt p).waitQ.erase i, (s.aduAt p).admitted.erase i⟩ := by
    show ((freeGateOf i s).modAdu p f).aduAt p = _
    rw [State.aduAt_modAdu_self, hadu]
    exact hf
  exact {
    now := by rw [hentry, if_pos rfl]
    others := fun j hj => by rw [hentry, if_neg hj]
    table := fun h => Rtb.ok_remove i ((quiet_freeGateOf i s).rtbOk h)
    states := fun q => by
      show ((((freeGateOf i s).modAdu p f).modEpisode p g).prcAt q).state = _
      rw [State.modEpisode, State.prcAt_modPrc, State.modAdu_prcAt, freeGateOf_rest]
      split
      · next hq => rw [hq]; rfl
      · rfl
    adu := fun q hq => by
      show ((freeGateOf i s).modAdu p f).aduAt q = _
      rw [State.aduAt_modAdu, if_neg hq, hadu]
    waitQ := by rw [hown]
    admitted := by rw [hown]
    gpm := by
      show (freeGateOf i s).gpm = _
      rw [freeGateOf_gpm, gateOf_eq_heldGate, he]
      cases hg : e.gate <;> simp [heldGate, hg]
    kept := nofun }

theorem dropEntry_prcAt_ne (f : AduPort → AduPort) (g : Episode → Episode) {q : Port} (hq : q ≠ p) :
    (dropEntry p i f g s).prcAt q = s.prcAt q := by
  show (((freeGateOf i s).modAdu p f).modEpisode p g).prcAt q = _
  rw [State.modEpisode, State.prcAt_modPrc, if_neg hq, State.modAdu_prcAt, freeGateOf_rest]
  rfl

theorem dropEntry_prcAt (f : AduPort → AduPort) (g : Episode → Episode) :
    (dropEntry p i f g s).prcAt p = { s.prcAt p with episode := g (s.prcAt p).episode } := by
  show (((freeGateOf i s).modAdu p f).modEpisode p g).prcAt p = _
  rw [State.modEpisode, State.prcAt_modPrc_self, State.modAdu_prcAt, freeGateOf_rest]
  rfl

theorem dropEntry_arrival (f : AduPort → AduPort) (g : Episode → Episode) (he : s.rtb.entry? i = some e)
    (q : Port) : (dropEntry p i f g s).rtb.arrival[q] =
      if q = e.port then (s.rtb.arrival[q]).erase i else s.rtb.arrival[q] := by
  have hfreed : (freeGateOf i s).rtb.entry? i = some { e with gate := none } := by
    rw [freeGateOf_entry?, if_pos rfl, he]
    rfl
  have harrival : (freeGateOf i s).rtb.arrival = s.rtb.arrival := by rw [freeGateOf_rest]
  show ((freeGateOf i s).rtb.remove i).arrival[q] = _
  unfold Rtb.remove
  rw [hfreed]
  show (modAt (freeGateOf i s).rtb.arrival e.port _)[q] = _
  rw [harrival]
  split
  · next hq => rw [hq]; exact modAt_get_self ..
  · next hq => exact modAt_get_ne _ _ _ _ hq

theorem keptAt_dropEntry (f : AduPort → AduPort) (g : Episode → Episode) (he : s.rtb.entry? i = some e)
    (hp : e.port = p) (hf : s.booksOk → f (s.aduAt p) =
      ⟨(s.aduAt p).waitQ.erase i, (s.aduAt p).admitted.erase i⟩) : KeptAt p s (dropEntry p i f g s) where
  books h := (dropEntry_letsGo f g he (hf h)).booksOk h he hp
  others h q hq := by
    have hgo := dropEntry_letsGo (p := p) f g he (hf h)
    have hprc : (dropEntry p i f g s).prcAt q = s.prcAt q := dropEntry_prcAt_ne f g hq
    refine ⟨by rw [hprc], by rw [hprc], by rw [hprc], ?_, hgo.adu q hq, ?_, fun j x hx hxq => ?_⟩
    · show (freeGateOf i s).pgs = s.pgs
      exact (quiet_freeGateOf i s).pgs
    · rw [dropEntry_arrival f g he, if_neg (hp ▸ hq)]
    · have hj : j ≠ i := by
        rintro rfl
        obtain rfl := Option.some.inj (he.symm.trans hx)
        exact hq (hxq.symm.trans hp)
      exact ⟨x, (hgo.others j hj).trans hx, .refl x⟩
  queue h _ hq := by
    have hgo := dropEntry_letsGo (p := p) f g he (hf h)
    exact hgo.queueOk h hq (bandArrival_removed h (by rw [dropEntry_arrival f g he, if_pos hp.symm]) hgo.others hq.order)
  pgs := (quiet_freeGateOf i s).pgs

/-- An entry that stands in no collection and holds no gate is only removed. -/
theorem removeEntry_eq_dropEntry (hg : e.gate = none) (he : s.rtb.entry? i = some e) :
    s.removeEntry i = dropEntry p i id id s := by
  unfold dropEntry
  rw [freeGateOf_of_no_gate he hg, State.modAdu_same (f := id) rfl]
  show _ = (s.modPrc p _).removeEntry i
  rw [State.modPrc_same s p _ rfl]

theorem released_eq_dropEntry (s : State) (p : Port) (i : Slot) :
    (freeGateOf i s).removeEntry i = dropEntry p i id id s := by
  unfold dropEntry
  rw [State.modAdu_same (f := id) rfl]
  show _ = ((freeGateOf i s).modPrc p _).removeEntry i
  rw [State.modPrc_same _ p _ rfl]

/-- An entry outside both collections leaves the table. -/
theorem kept_dropUnplaced (he : s.rtb.entry? i = some e) (hwait : e.state ≠ .waiting) (hadm : e.state ≠ .admitted) :
    Kept s (dropEntry e.port i id id s) := by
  have hout (h : s.booksOk) : i ∉ (s.aduAt e.port).waitQ ∧ i ∉ (s.aduAt e.port).admitted :=
    ⟨fun hi => hwait ((h.waits_iff he).mp hi), fun hi => hadm ((h.admitted_iff he).mp hi)⟩
  have hf (h : s.booksOk) : id (s.aduAt e.port) =
      ⟨(s.aduAt e.port).waitQ.erase i, (s.aduAt e.port).admitted.erase i⟩ := by
    obtain ⟨hw, ha⟩ := hout h
    rw [List.erase_of_not_mem hw, List.erase_of_not_mem ha]
    rfl
  refine KeptAt.kept (fun h => keptAt_dropEntry id id he rfl hf) (quiet_freeGateOf i s).pgs fun h hfilled => ?_
  refine (dropEntry_letsGo id id he (hf h)).filledOk ?_ (hout h).2 hfilled
  have hpgs : (dropEntry e.port i id id s).pgs = s.pgs := (quiet_freeGateOf i s).pgs
  simp only [State.currentStep, dropEntry_prcAt, hpgs, id]

theorem kept_removeEntry (h : ∀ e, s.rtb.entry? i = some e → e.state.ages = true) : Kept s (s.removeEntry i) := by
  cases he : s.rtb.entry? i with
  | none =>
    have hsame : s.removeEntry i = s := by
      unfold State.removeEntry Rtb.remove
      rw [he]
    rw [hsame]
    exact .refl s
  | some e =>
    have hages := h e he
    have hplace : e.state ≠ .waiting ∧ e.state ≠ .admitted ∧ e.state.holdsGate = false := by
      cases hst : e.state <;> rw [hst] at hages <;> simp_all [EntryState.ages, EntryState.holdsGate]
    obtain ⟨hwait, hadm, hno⟩ := hplace
    have hdrop := kept_dropUnplaced he hwait hadm
    have heq (hb : s.booksOk) : s.removeEntry i = dropEntry e.port i id id s :=
      removeEntry_eq_dropEntry ((hb.entryOk he).bare hno).1 he
    exact ⟨fun hb => heq hb ▸ hdrop.books hb, id, fun hb hp hq => heq hb ▸ hdrop.queues hb hp hq⟩

theorem kept_ageOut (i : Slot) : Kept s (ageOut i s) := by
  unfold ageOut
  split
  · next hm =>
    refine (kept_removeEntry fun e he => ?_).trans (alike_modRtbCtr _ _).kept
    unfold State.matured at hm
    rw [he] at hm
    simp only [Bool.and_eq_true] at hm
    exact hm.1
  · exact .refl s

/-! ### Eviction (R47) -/

theorem oldestSeen_seen {now : Nat} {l : List (Slot × Entry)} {x : Slot × Entry} (h : oldestSeen now l = some x) :
    x ∈ l ∧ x.2.state = .seen := by
  induction l generalizing x with
  | nil => exact nomatch h
  | cons y l ih =>
    unfold oldestSeen at h
    split at h
    · split at h
      · next hy => exact Option.some.inj h ▸ ⟨List.mem_cons_self, hy⟩
      · exact nomatch h
    · next z hz =>
      split at h
      · next hy => exact Option.some.inj h ▸ ⟨List.mem_cons_self, hy.1⟩
      · obtain ⟨hmem, hst⟩ := ih hz
        exact Option.some.inj h ▸ ⟨List.mem_cons_of_mem y hmem, hst⟩

theorem kept_evict {x : Slot × Entry} (h : oldestSeen s.now s.rtb.table = some x) : Kept s (evict x.1 s) := by
  obtain ⟨hmem, hst⟩ := oldestSeen_seen h
  have hremove : Kept s (s.removeEntry x.1) := by
    refine ⟨fun hb => ?_, id, fun hb => ?_⟩
    all_goals
      have hentry : s.rtb.entry? x.1 = some x.2 :=
        Rtb.entry?_of_mem (hb.table.1.imp fun hxy => hxy.1) hmem
      have hkept : Kept s (s.removeEntry x.1) := kept_removeEntry fun e he => by
        obtain rfl := Option.some.inj (hentry.symm.trans he)
        rw [hst]
        rfl
    · exact hkept.books hb
    · exact hkept.queues hb
  exact hremove.trans (alike_modRtbCtr _ _).kept

theorem kept_takeSighting (h : BitVec 32) (ing : BitVec 6) (srv : BitVec 16) : Kept s (takeSighting h p ing srv s) := by
  unfold takeSighting
  split
  · exact (alike_refresh s _).kept
  · next hl =>
    split
    · exact kept_learn ing srv hl
    split
    · next i x hold => exact (kept_evict hold).trans (kept_learn ing srv (evict_lookup _ hl))
    · exact (alike_modRtbCtr s _).kept.trans (alike_ern _ _).kept

end

end Sys2Proof.Machine
end

section
/-! SUPPORT. Flow Ends, Hold Pressures and Gate Spents keep books and queues (R52 to R55, R134, R136). -/

namespace Sys2Proof.Machine

section
variable {p : Port} {i : Slot} {s : State} {e : Entry}

/-! ### Flow Ends -/

theorem dropEntry_pgs (f : AduPort → AduPort) (g : Episode → Episode) : (dropEntry p i f g s).pgs = s.pgs :=
  (quiet_freeGateOf i s).pgs

theorem dropEntry_currentStep (f : AduPort → AduPort) {g : Episode → Episode}
    (hg : ∀ x, (g x).program = x.program ∧ (g x).stepIndex = x.stepIndex) :
    (dropEntry p i f g s).currentStep p = s.currentStep p := by
  simp only [State.currentStep, dropEntry_prcAt, dropEntry_pgs, (hg _).1, (hg _).2]

/-- An ADMITTED entry leaves its place, and the refill and the re-rating follow (R54). -/
theorem kept_admittedLeaves (g : Episode → Episode) (he : s.rtb.entry? i = some e) (hp : e.port = p)
    (hst : e.state = .admitted) :
    Kept s (rerate p (refill p (dropEntry p i (fun a => { a with admitted := a.admitted.erase i }) g s))) := by
  have hdrop (h : s.booksOk) :
      KeptAt p s (dropEntry p i (fun a => { a with admitted := a.admitted.erase i }) g s) := by
    refine keptAt_dropEntry _ g he hp fun _ => ?_
    have hout : i ∉ (s.aduAt p).waitQ := fun hi => by
      have hw := (h.waits_iff he).mp (hp ▸ hi)
      exact nomatch hst.symm.trans hw
    rw [List.erase_of_not_mem hout]
  refine KeptAt.kept (p := p) (fun h => ?_) ?_ fun h _ => ?_
  · exact ((hdrop h).trans (keptAt_refill p _)).trans ((alike_rerate _ p).keptAt p)
  · exact (alike_rerate _ p).pgs.trans ((keptAt_refill p _).pgs.trans (dropEntry_pgs _ _))
  · exact (alike_rerate _ p).filledOk (refill_filled p _ ((hdrop h).books h))

theorem kept_endAdmitted (held named : Option GateRef) (left : Nat) (he : s.rtb.entry? i = some e) (hp : e.port = p)
    (hst : e.state = .admitted) : Kept s (endAdmitted i p held named left s) := by
  have hpool : Alike s (if refunds held named (s.prcAt p).state then addToPool p left s else s) := by
    split
    · exact alike_addToPool s p left
    · exact .refl s
  obtain ⟨x, hx, hface⟩ := hpool.entry he
  exact hpool.kept.trans (kept_admittedLeaves _ hx (hface.port.trans hp) (hface.state.trans hst))

theorem kept_endWaiting (he : s.rtb.entry? i = some e) (hp : e.port = p) (hst : e.state = .waiting) :
    Kept s (endWaiting i p s) := by
  have hout (h : s.booksOk) : i ∉ (s.aduAt p).admitted := fun hi => by
    have ha := (h.admitted_iff he).mp (hp ▸ hi)
    exact nomatch hst.symm.trans ha
  have hf (h : s.booksOk) : (fun a : AduPort => { a with waitQ := a.waitQ.erase i }) (s.aduAt p) =
      ⟨(s.aduAt p).waitQ.erase i, (s.aduAt p).admitted.erase i⟩ := by
    rw [List.erase_of_not_mem (hout h)]
  exact KeptAt.kept (p := p) (fun _ => keptAt_dropEntry _ _ he hp hf) (dropEntry_pgs _ _) fun h hfilled =>
    (dropEntry_letsGo _ _ he (hf h)).filledOk (dropEntry_currentStep _ fun _ => ⟨rfl, rfl⟩) (hout h) hfilled

theorem kept_endEntry (named : Option GateRef) (left : Nat) (he : s.rtb.entry? i = some e) :
    Kept s (endEntry i e named left s) := by
  have hctr : Alike s (if gateMismatch e.gate named then
      s.modRtbCtr fun c => { c with gateMismatches := sat32 (c.gateMismatches + 1) } else s) := by
    split
    · exact alike_modRtbCtr s _
    · exact .refl s
  have hremove {t : State} (ht : t.rtb.entry? i = some e) (hages : e.state.ages = true) : Kept t (t.removeEntry i) :=
    kept_removeEntry fun x hx => Option.some.inj (ht.symm.trans hx) ▸ hages
  have hsame : (if gateMismatch e.gate named then
      s.modRtbCtr fun c => { c with gateMismatches := sat32 (c.gateMismatches + 1) } else s).rtb.entry? i = some e := by
    split <;> exact he
  unfold endEntry
  refine hctr.kept.trans ?_
  cases hst : e.state with
  | admitted => exact kept_endAdmitted _ _ _ hsame rfl hst
  | waiting => exact kept_endWaiting hsame rfl hst
  | released =>
    dsimp only
    rw [released_eq_dropEntry _ e.port]
    exact kept_dropUnplaced hsame (by rw [hst]; nofun) (by rw [hst]; nofun)
  | seen => exact hremove hsame (by rw [hst]; rfl)
  | bypassed => exact hremove hsame (by rw [hst]; rfl)
  | ungated => exact hremove hsame (by rw [hst]; rfl)

theorem Rtb.lookup_some {r : Rtb} (hr : r.table.Pairwise fun x y => x.1 < y.1) {h : BitVec 32}
    (hl : r.lookup h p = some (i, e)) : r.entry? i = some e ∧ e.hash = h ∧ e.port = p := by
  obtain ⟨hkey, hmem⟩ := List.find?_some hl, List.mem_of_find?_eq_some hl
  simp only [Bool.and_eq_true, beq_iff_eq] at hkey
  exact ⟨Rtb.entry?_of_mem hr hmem, hkey⟩

theorem State.booksOk.lookup_some (hb : s.booksOk) {h : BitVec 32} (hl : s.rtb.lookup h p = some (i, e)) :
    s.rtb.entry? i = some e ∧ e.hash = h ∧ e.port = p :=
  Rtb.lookup_some (hb.table.1.imp fun hxy => hxy.1) hl

/-- A change whose case analysis needs the books. -/
theorem Kept.of_books {t : State} (h : s.booksOk → Kept s t) (hpgs : t.pgs = s.pgs) : Kept s t :=
  ⟨fun hb => (h hb).books hb, by rw [hpgs]; exact id, fun hb => (h hb).queues hb⟩

theorem kept_takeFlowEnd (hash : BitVec 32) (named : Option GateRef) (left : Nat) :
    Kept s (takeFlowEnd hash p named left s) := by
  refine .of_books (fun hb => ?_) (mild_takeFlowEnd hash p named left s).pgs
  unfold takeFlowEnd
  dsimp only
  split
  · exact (alike_modRtbCtr s _).kept.trans (alike_modRtbCtr _ _).kept
  · next x f hl =>
    have hx : s.rtb.entry? x = some f := (hb.lookup_some (h := hash) (p := p) hl).1
    exact (alike_modRtbCtr s _).kept.trans (kept_endEntry named left hx)

/-! ### Hold Pressure (R134) -/

/-- A bypass of an entry that holds a gate (R128). -/
theorem bypass_gated {r : GateRef} (he : s.rtb.entry? i = some e) (hr : e.gate = some r) :
    (bypass p i s).rtb.entry? i = some { e with state := .bypassed, gate := none, dry := none, overdraft := none } ∧
    (bypass p i s).aduAt p = { s.aduAt p with waitQ := (s.aduAt p).waitQ.erase i } ∧
    ((bypass p i s).prcAt p).episode =
      { (s.prcAt p).episode with bypassed := sat32 ((s.prcAt p).episode.bypassed + 1) } ∧
    (bypass p i s).adu.bypasses = sat32 (s.adu.bypasses + 1) ∧ (bypass p i s).gpm = s.gpm.freeGate r.gate ∧
    (bypass p i s).ern = s.ern.raise .bypass (some p) (s.prcAt p).episode.number
      (sat32 ((s.prcAt p).episode.bypassed + 1)) s.stamp := by
  have hfree := freeGateOf_of_gate (s := s.modAdu p fun a => { a with waitQ := a.waitQ.erase i }) he hr
  unfold bypass
  rw [hfree]
  refine ⟨?_, ?_, ?_, rfl, rfl, ?_⟩
  · refine (Rtb.entry?_modEntry_self ..).trans ?_
    show ((s.rtb.modEntry i _).entry? i).map _ = _
    rw [Rtb.entry?_modEntry_self, he]
    rfl
  · exact State.aduAt_modAdu_self ..
  · exact congrArg PrcPort.episode (State.prcAt_modPrc_self ..)
  · have hport := State.prcAt_modPrc_self s p
      fun q => { q with episode := { q.episode with bypassed := sat32 (q.episode.bypassed + 1) } }
    exact congrArg (fun q : PrcPort => s.ern.raise .bypass (some p) q.episode.number q.episode.bypassed s.stamp) hport

section
variable (h : s.booksOk) (he : s.rtb.entry? i = some e) (hp : e.port = p) (hst : e.state = .waiting)
include h he hp hst

theorem bypass_letsGo : ∃ o, LetsGo p i e (some o) s (bypass p i s) := by
  obtain ⟨r, hr⟩ := (h.entryOk he).gated (by rw [hst]; rfl)
  have hel : e.eligible = true := h.eligible he (by rw [hst]; nofun)
  have hout : i ∉ (s.aduAt p).admitted := fun hi => by
    have ha := (h.admitted_iff he).mp (hp ▸ hi)
    exact nomatch hst.symm.trans ha
  have hat := atEntry_bypass p i s
  obtain ⟨hf, hadu, _, _, hgpm, _⟩ := bypass_gated (p := p) he hr
  refine ⟨_, hf, hat.entries, hat.quiet.rtbOk, fun q => ?_, fun q hq => (hat.others q hq).2, by rw [hadu],
    by rw [hadu, List.erase_of_not_mem hout], by rw [hgpm, hr]; rfl, fun x hx => ?_⟩
  · by_cases hq : q = p
    · rw [hq, hat.state]
    · rw [(hat.others q hq).1]
  · obtain rfl := Option.some.inj hx
    have hocc := h.occurs he
    rw [hst, hp] at hocc
    refine ⟨rfl, rfl, ⟨iff_of_false nofun nofun, iff_of_false nofun nofun, iff_of_false nofun nofun, fun _ => hel⟩, rfl, ?_⟩
    revert hocc
    cases (s.prcAt p).state <;> exact fun _ => by trivial

theorem keptAt_bypassWaiting : KeptAt p s (bypass p i s) ∧ (s.filledOk p → (bypass p i s).filledOk p) := by
  obtain ⟨o, hgo⟩ := bypass_letsGo h he hp hst
  have hat := atEntry_bypass p i s
  have hout : i ∉ (s.aduAt p).admitted := fun hi => by
    have ha := (h.admitted_iff he).mp (hp ▸ hi)
    exact nomatch hst.symm.trans ha
  refine ⟨⟨fun hb => hgo.booksOk hb he hp, fun _ q hq => hat.portSame hq fun x hx => ?_, fun hb _ hq => ?_, hat.quiet.pgs⟩,
    hgo.filledOk hat.currentStep hout⟩
  · rw [← Option.some.inj (he.symm.trans hx), hp]
  · refine hgo.queueOk hb hq ?_
    rw [hat.quiet.bandArrival]
    exact List.erase_sublist.trans hq.order

theorem keptAt_admitMarked (hroom : s.overdraftCount p < 8) :
    KeptAt p s (admitWaiting p true i s) ∧ (s.filledOk p → (admitWaiting p true i s).filledOk p) := by
  obtain ⟨r, hr⟩ := (h.entryOk he).gated (by rw [hst]; rfl)
  have hat : AtEntry p i s (admitWaiting p true i s) := atEntry_admitWaiting true
  obtain ⟨hf, hadu, _⟩ := admitWaiting_effects (p := p) true he hr
  have hout : i ∉ (s.aduAt p).admitted := fun hi => by
    have ha := (h.admitted_iff he).mp (hp ▸ hi)
    exact nomatch hst.symm.trans ha
  have hmarks := hat.overdraftCount_of_joined (mark := true) (by rw [hadu]) hout hf rfl
  have hcount : (admitWaiting p true i s).admittedCount p = s.admittedCount p + 1 := by
    unfold State.admittedCount
    rw [hadu, List.length_append, List.length_singleton]
  refine ⟨⟨fun hb => admitWaiting_books true hb he hp hst, fun _ q hq => hat.portSame hq fun x hx => ?_,
    fun _ _ hq => ⟨?_, ?_, ?_, ?_⟩, hat.quiet.pgs⟩, fun hfilled hrelief => ?_⟩
  · rw [← Option.some.inj (he.symm.trans hx), hp]
  · rw [hadu, hat.quiet.bandArrival]
    exact List.erase_sublist.trans hq.order
  · rw [hadu]
    exact List.erase_sublist.length_le.trans hq.length
  · rw [hmarks]
    exact hroom
  · have hold := hq.admitted
    rw [hcount, hmarks]
    show s.admittedCount p + 1 ≤ 64 + (s.overdraftCount p + 1)
    omega
  · rw [hat.currentStep, hcount]
    rcases hfilled (hat.state ▸ hrelief) with hfull | hnil
    · exact .inl (Nat.le_succ_of_le hfull)
    · have hin := (h.waits_iff he).mpr hst
      rw [hp, hnil] at hin
      exact nomatch hin

end

theorem kept_holdPressureOn (held : BitVec 24) : Kept s (holdPressureOn i held s) := by
  unfold holdPressureOn
  split
  · exact .refl s
  next e he =>
  have hnote : Alike s (s.modEntry i fun x => { x with lastHeld := some held }) :=
    alike_modEntry s i _ (fun _ _ => rfl) fun _ => ⟨rfl, rfl⟩
  obtain ⟨x, hx, hface⟩ := hnote.entry he
  dsimp only
  split
  · next hst =>
    have hwaits := hface.state.trans hst
    split
    · next hroom =>
      refine hnote.kept.trans (Kept.trans (.of_books (fun hb => ?_) ?_) (alike_rerate _ _).kept)
      · obtain ⟨hkept, hfilled⟩ := keptAt_admitMarked hb hx hface.port hwaits hroom.2
        exact KeptAt.kept (fun _ => hkept) hkept.pgs fun _ => hfilled
      · exact (atEntry_admitWaiting (p := e.port) (i := i) true).quiet.pgs
    · refine hnote.kept.trans (.of_books (fun hb => ?_) (atEntry_bypass e.port i _).quiet.pgs)
      obtain ⟨hkept, hfilled⟩ := keptAt_bypassWaiting hb hx hface.port hwaits
      exact KeptAt.kept (fun _ => hkept) hkept.pgs fun _ => hfilled
  · refine hnote.kept.trans (Alike.kept ?_)
    exact alike_counts _ rfl ⟨rfl, rfl, rfl⟩ rfl rfl rfl

theorem kept_takeHoldPressure (g : GateNo) (ep : BitVec 4) (h : BitVec 32) (held : BitVec 24) :
    Kept s (takeHoldPressure g ep h held s) := by
  unfold takeHoldPressure
  split
  · dsimp only
    have hcount : Kept s { s with gpm := { s.gpm with validHold := sat32 (s.gpm.validHold + 1) } } :=
      Alike.kept (by exact alike_counts s rfl ⟨rfl, rfl, rfl⟩ rfl rfl rfl)
    split
    · exact hcount.trans (kept_holdPressureOn held)
    · exact hcount
  · exact (alike_countStale s).kept

theorem kept_takeGateSpent (g : GateNo) (ep : BitVec 4) (echo : BitVec 8) (h : BitVec 32) :
    Kept s (takeGateSpent g ep echo h s) :=
  kept_of_alike (alike_takeGateSpent s g ep echo h) (quiet_takeGateSpent g ep echo h s).pgs

end

end Sys2Proof.Machine
end

section
/-! SUPPORT. The expiries, the teardown and the requests of a port keep books and queues, and so does every step (R17,
R58, R92 to R106, R116, R154). -/

namespace Sys2Proof.Machine

section
variable {p : Port} {s : State}

/-! ### Expiries -/

theorem kept_debounceEvent : Kept s (debounceEvent p s) := by
  unfold debounceEvent
  split
  · exact (kept_modPrc_same (fun q : PrcPort => { q with debounce := .stopped, qualified := true }) rfl rfl rfl).trans
      kept_checkOpening
  · exact .refl s

theorem kept_staleEvent : Kept s (staleEvent p s) := by
  have hstop : Alike s (s.modPrc p fun q => { q with stale := .stopped }) := alike_modPrc s p _ rfl rfl rfl
  unfold staleEvent
  dsimp only
  split
  · split
    · next hst => exact hstop.kept.trans (kept_enterPort .idle (by rw [(hstop.ports p).1, hst]; rfl) nofun)
    · exact (hstop.trans (alike_raiseEpisode _ p _ _)).kept.trans (kept_endEpisode .stale)
  · exact .refl s

theorem kept_guardEvent : Kept s (guardEvent p s) := by
  unfold guardEvent State.guardDue
  split
  · next hdue =>
    simp only [Bool.and_eq_true, beq_iff_eq] at hdue
    have hstop : Alike s ((s.modPrc p fun q => { q with guard := .stopped }).modEpisode p fun e =>
        { e with stepsByGuard := e.stepsByGuard + 1 }) :=
      (alike_modPrc s p (fun q => { q with guard := .stopped }) rfl rfl rfl).trans
        (alike_modEpisode _ p _ fun _ => ⟨rfl, rfl⟩)
    have hstate := (hstop.ports p).1.trans hdue.1
    exact hstop.kept.trans (KeptAt.kept (fun _ => keptAt_endStep true hstate) (quiet_endStep p true _).pgs
      fun h _ => endStep_filled true h)
  · exact .refl s

theorem kept_drainEvent : Kept s (drainEvent p s) := by
  unfold drainEvent
  split
  · refine Kept.trans (Alike.kept (Alike.trans ?_ (alike_raiseEpisode _ p _ _))) (kept_endEpisode .drainStall)
    exact alike_modPrc s p (fun q => { q with drain := .stopped }) rfl rfl rfl
  · exact .refl s

theorem kept_cooldownEvent : Kept s (cooldownEvent p s) := by
  unfold cooldownEvent State.cooldownDue
  split
  · next hdue =>
    simp only [Bool.and_eq_true, beq_iff_eq] at hdue
    exact kept_enterPort .idle (by rw [hdue.1]; rfl) nofun
  · exact .refl s

/-! ### The teardown -/

theorem kept_teardownPort (o : EpisodeOutcome) : Kept s (teardownPort o s p) := by
  unfold teardownPort
  split
  · exact kept_endEpisode o
  · exact kept_endEpisode o
  · exact kept_endEpisode o
  · next h => exact kept_enterPort .idle (by rw [h]; rfl) nofun
  · next h => exact kept_enterPort .idle (by rw [h]; rfl) nofun
  · exact .refl s
  · exact .refl s

/-- Every BOUND gate is held by an entry in one of these slots, and every other has the fields of a FREE one. -/
structure State.boundIn (s : State) (l : List Slot) : Prop where
  lists : s.gpm.listsOk
  bound : ∀ g, (s.gpm.gate g).bound ≠ none → ∃ i ∈ l, heldGate (s.rtb.entry? i) = some g
  unbound : ∀ g, (s.gpm.gate g).bound = none → (s.gpm.gate g).freeOk

theorem Gate.freed_freeOk (g : Gate) : g.freed.freeOk := ⟨rfl, rfl, rfl, rfl⟩

theorem Gpm.freeGate_of_free {m : Gpm} {g : GateNo} (h : (m.gate g).bound = none) : m.freeGate g = m := by
  unfold Gpm.freeGate
  rw [h]
  rfl

/-- Freeing the gate that a slot's entry holds leaves the BOUND gates to the other slots. -/
theorem State.boundIn.free {i : Slot} {l : List Slot} (h : s.boundIn (i :: l)) : (freeGateOf i s).boundIn l := by
  have hgate (g : GateNo) : (freeGateOf i s).gpm.gate g =
      if s.gateOf i = some g ∧ (s.gpm.gate g).bound ≠ none then (s.gpm.gate g).freed else s.gpm.gate g := by
    rw [freeGateOf_gpm]
    cases hi : s.gateOf i with
    | none => simp
    | some k =>
      show (s.gpm.freeGate k).gate g = _
      by_cases hb : (s.gpm.gate k).bound = none
      · rw [Gpm.freeGate_of_free hb]
        split
        · next hc => exact absurd (Option.some.inj hc.1 ▸ hb) hc.2
        · rfl
      · rw [Gpm.freeGate_gate hb]
        by_cases hg : g = k
        · rw [if_pos hg, if_pos ⟨by rw [hg], hg ▸ hb⟩, hg]
        · rw [if_neg hg, if_neg fun hc => hg (Option.some.inj hc.1).symm]
  refine ⟨(quiet_freeGateOf i s).listsOk h.lists, fun g hg => ?_, fun g hg => ?_⟩
  · rw [hgate] at hg
    split at hg
    · exact absurd rfl hg
    · next hkeep =>
      obtain ⟨j, hj, hheld⟩ := h.bound g hg
      rcases List.mem_cons.mp hj with rfl | hj
      · exact absurd ⟨hheld, hg⟩ hkeep
      · have hji : j ≠ i := fun e => hkeep ⟨e ▸ hheld, hg⟩
        exact ⟨j, hj, by rw [freeGateOf_entry?, if_neg hji]; exact hheld⟩
  · rw [hgate] at hg ⊢
    split
    · exact Gate.freed_freeOk _
    · next hkeep =>
      rw [if_neg hkeep] at hg
      exact h.unbound g hg

theorem State.boundIn.freeAll {l : List Slot} (h : s.boundIn l) :
    (l.foldl (fun s i => freeGateOf i s) s).boundIn [] := by
  induction l generalizing s with
  | nil => exact h
  | cons i l ih => exact ih h.free

theorem State.booksOk.boundIn (h : s.booksOk) : s.boundIn (s.rtb.table.map (·.1)) := by
  refine ⟨h.lists, fun g hg => ?_, h.unbound⟩
  obtain ⟨k, hk⟩ := Option.ne_none_iff_exists'.mp hg
  obtain ⟨i, e, r, he, _, _, hr, rfl⟩ := h.bound g k hk
  exact ⟨i, List.mem_map.mpr ⟨(i, e), Rtb.mem_of_entry? he, rfl⟩, by rw [he]; exact heldGate_of_gate hr⟩

theorem clearTables_booksOk (h : s.boundIn []) : (clearTables s).booksOk := by
  have hgates (g : GateNo) : (s.gpm.gate g).bound = none := by
    by_contra hg
    obtain ⟨i, hi, _⟩ := h.bound g hg
    exact nomatch hi
  have hempty (i : Slot) (e : Entry) : (clearTables s).rtb.entry? i ≠ some e := by
    rw [show (clearTables s).rtb.entry? i = none from rfl]
    exact Option.some_ne_none e |>.symm
  exact {
    table := clearTables_rtb_ok s
    lists := h.lists
    entries := fun i e he => absurd he (hempty i e)
    held := fun i e _ he => absurd he (hempty i e)
    bound := fun g k hk => nomatch (hgates g).symm.trans hk
    unbound := fun g => h.unbound g
    waiting := fun p => by rw [clearTables_aduAt]; exact ⟨List.nodup_nil, fun i => iff_of_false nofun nofun⟩
    admitted := fun p => by rw [clearTables_aduAt]; exact ⟨List.nodup_nil, fun i => iff_of_false nofun nofun⟩ }

theorem teardown_booksOk (o : EpisodeOutcome) (h : s.booksOk) : (teardown o s).booksOk := by
  have hports (l : List Port) : (l.foldl (teardownPort o) s).booksOk :=
    (Kept.fold (fun _ _ => kept_teardownPort o) l s).books h
  unfold teardown
  generalize List.finRange 48 = l
  exact clearTables_booksOk (hports l).boundIn.freeAll

theorem kept_teardown (o : EpisodeOutcome) : Kept s (teardown o s) where
  books := teardown_booksOk o
  pgs := by rw [(mild_teardown o s).pgs]; exact id
  queues _ _ _ := by
    obtain ⟨u, hu⟩ : ∃ u, teardown o s = clearTables u := by unfold teardown; exact ⟨_, rfl⟩
    rw [hu]
    exact queuesOk_of_empty (clearTables_arrival u) (clearTables_aduAt u)

/-! ### Requests -/

theorem kept_setPort (b : List Byte) : Kept s (setPort b s).1 :=
  setPort_cases (P := Kept s) b (.refl s) fun _ _ _ => kept_modPrc_same _ rfl rfl rfl

theorem kept_armOn : Kept s (armOn p s).1 := by
  unfold armOn
  dsimp only
  split
  · next h => exact kept_enterPort .idle (by rw [h]; rfl) nofun
  · exact .refl s

theorem kept_clearStandby : Kept s (clearStandby p s) := kept_modPrc_same _ rfl rfl rfl

theorem kept_disarmOn : Kept s (disarmOn p s).1 := by
  unfold disarmOn
  dsimp only
  split
  · exact kept_endEpisode .disarmed
  · next h =>
    have hno : (s.prcAt p).state.hasEpisode = false := by simpa using h
    refine Kept.trans ?_ kept_clearStandby
    split
    · exact .refl s
    · exact kept_enterPort .disarmed hno nofun

theorem kept_startRelief (b : List Byte) : Kept s (startRelief b s).1 := by
  refine withPort_rel Kept.refl (fun p s => ?_) b s
  unfold startReliefChecked
  split
  · exact .refl s
  split
  · exact .refl s
  split
  · exact .refl s
  unfold startReliefOn
  split
  · split
    · exact kept_modPrc_same _ rfl rfl rfl
    · exact .refl s
  · next hno => exact kept_openEpisode _ _ fun h => h.allSeen (by simpa using hno)

theorem kept_stopReliefOn : Kept s (stopReliefOn p s).1 := by
  unfold stopReliefOn
  dsimp only
  split
  · exact kept_endEpisode .aborted
  · exact kept_clearStandby

/-- The same entries occur in RELIEF and in PAUSED (R39). -/
theorem EntryState.occursIn_paused (st : EntryState) : st.occursIn .paused = st.occursIn .relief := by cases st <;> rfl

theorem keptAt_enterRunning {st old : PortState} (hst : st = .relief ∨ st = .paused)
    (hold : (s.prcAt p).state = old) (hwas : old = .relief ∨ old = .paused) : KeptAt p s (s.enterPort p st) :=
  keptAt_modPrc p s _ fun h i e he hp => by
    have hocc := h.occurs he
    rw [hp, hold] at hocc
    show e.state.occursIn st = true
    rcases hst with rfl | rfl <;> rcases hwas with rfl | rfl <;> simpa [EntryState.occursIn_paused] using hocc

theorem kept_pauseOn : Kept s (pauseOn p s).1 := by
  unfold pauseOn
  split
  · next hst =>
    have henter := (keptAt_enterRunning (p := p) (s := s) (st := .paused) (.inr rfl) hst (.inl rfl)).trans
      (keptAt_modPrc_same p _ (fun q : PrcPort => { q with
        guard := q.guard.freeze s.now
        episode := { q.episode with clock := q.episode.clock.halt s.now } }) rfl)
    refine KeptAt.kept (fun _ => henter) henter.pgs fun _ _ => filledOk_of_not_relief ?_
    rw [State.prcAt_modPrc_self, State.prcAt_enterPort]
    nofun
  · exact .refl s

theorem kept_resumeOn : Kept s (resumeOn p s).1 := by
  unfold resumeOn
  split
  · next hst =>
    have henter := (keptAt_enterRunning (p := p) (s := s) (st := .relief) (.inl rfl) hst (.inr rfl)).trans
      (keptAt_modPrc_same p _ (fun q : PrcPort => { q with
        guard := q.guard.thaw s.now
        episode := { q.episode with clock := q.episode.clock.go s.now } }) rfl)
    have hrun := (henter.trans (keptAt_refill p _)).trans ((alike_rerateIfChanged _ p (s.admittedCount p)).keptAt p)
    exact KeptAt.kept (fun _ => hrun) hrun.pgs fun h _ =>
      (alike_rerateIfChanged _ p _).filledOk (refill_filled p _ (henter.books h))
  · exact .refl s

/-- A program that no port runs may be replaced (R77). -/
theorem inUse_none {q : ProgNo} {n : Nat} (h : s.inUse q n = none) (p : Port) (hst : (s.prcAt p).state = .relief) :
    (s.prcAt p).episode.program ≠ q := by
  have hp := List.findSome?_eq_none_iff.mp h p (List.mem_finRange p)
  rw [Option.map_eq_none_iff] at hp
  unfold PrcPort.useCase at hp
  intro he
  rw [if_pos ⟨.inl hst, he⟩] at hp
  exact nomatch hp

theorem kept_writeProgram (b : List Byte) : Kept s (writeProgram b s).1 := by
  refine writeProgram_cases (P := Kept s) b (.refl s) fun q sts hq huse hroom => ?_
  refine ⟨fun h => ⟨h.table, h.lists, h.entries, h.held, h.bound, h.unbound, h.waiting, h.admitted⟩,
    Pgs.ok_program q (readProgramBody_ok hq).1 (readProgramBody_ok hq).2 hroom,
    fun _ _ hqs => ⟨hqs.order, hqs.waiting, hqs.admitted, fun p hst => ?_⟩⟩
  have hne := inUse_none huse p hst
  have hstep : State.currentStep { s with pgs := { s.pgs with programs := modAt s.pgs.programs q fun _ => sts } } p =
      s.currentStep p := by
    show ((modAt s.pgs.programs q fun _ => sts)[(s.prcAt p).episode.program]).getD _ _ = _
    rw [modAt_get_ne _ _ _ _ hne]
    rfl
  rw [hstep]
  exact hqs.filled p hst

end

theorem respects_kept : Respects Kept where
  trans _ _ _ := Kept.trans
  aside _ _ h := h.alike.kept
  teardown o _ := kept_teardown o
  report _ seq cells d _ := kept_takeReport seq cells d
  sighting h _ ing srv _ := kept_takeSighting h ing srv
  flowEnd h _ g n _ := kept_takeFlowEnd h g n
  gateSpent g ep echo h _ := kept_takeGateSpent g ep echo h
  holdPressure g ep h held _ := kept_takeHoldPressure g ep h held
  debounce _ _ := kept_debounceEvent
  stale _ _ := kept_staleEvent
  guard _ _ := kept_guardEvent
  drain _ _ := kept_drainEvent
  cooldown _ _ := kept_cooldownEvent
  age i _ := kept_ageOut i
  setPort b _ := kept_setPort b
  arm _ _ := kept_armOn
  disarm _ _ := kept_disarmOn
  startRelief b _ := kept_startRelief b
  stopRelief _ _ := kept_stopReliefOn
  pause _ _ := kept_pauseOn
  resume _ _ := kept_resumeOn
  writeProgram b _ := kept_writeProgram b

theorem step_booksOk {s t : State} (hb : s.booksOk) (h : step s = .next t) : t.booksOk :=
  step_keeps (I := State.booksOk) (fun _ _ h => ⟨h.table, h.lists, h.entries, h.held, h.bound, h.unbound, h.waiting, h.admitted⟩)
    (fun _ _ _ h => ⟨h.table, h.lists, h.entries, h.held, h.bound, h.unbound, h.waiting, h.admitted⟩)
    (fun _ _ => ⟨reset_booksOk.table, reset_booksOk.lists, reset_booksOk.entries, reset_booksOk.held,
      reset_booksOk.bound, reset_booksOk.unbound, reset_booksOk.waiting, reset_booksOk.admitted⟩)
    (fun _ h => (respects_kept.acts h).books) hb h

theorem step_queuesOk {s t : State} (hb : s.booksOk) (hp : s.pgs.ok) (hq : s.queuesOk) (h : step s = .next t) :
    t.queuesOk :=
  (step_keeps (I := fun s => s.booksOk ∧ s.pgs.ok ∧ s.queuesOk)
    (fun _ _ ⟨b, p, q⟩ => ⟨⟨b.table, b.lists, b.entries, b.held, b.bound, b.unbound, b.waiting, b.admitted⟩, p,
      ⟨q.order, q.waiting, q.admitted, q.filled⟩⟩)
    (fun _ _ _ ⟨b, p, q⟩ => ⟨⟨b.table, b.lists, b.entries, b.held, b.bound, b.unbound, b.waiting, b.admitted⟩, p,
      ⟨q.order, q.waiting, q.admitted, q.filled⟩⟩)
    (fun _ _ => ⟨⟨reset_booksOk.table, reset_booksOk.lists, reset_booksOk.entries, reset_booksOk.held,
      reset_booksOk.bound, reset_booksOk.unbound, reset_booksOk.waiting, reset_booksOk.admitted⟩,
      reset_settingsOk.2.2.2,
      ⟨reset_queuesOk.order, reset_queuesOk.waiting, reset_queuesOk.admitted, reset_queuesOk.filled⟩⟩)
    (fun _ h ⟨b, p, q⟩ =>
      have hk := respects_kept.acts h
      ⟨hk.books b, hk.pgs p, hk.queues b p q⟩) ⟨hb, hp, hq⟩ h).2.2

end Sys2Proof.Machine

namespace Sys2Proof.Proofs

open Sys2Proof Sys2Proof.Machine

/-- Settles O14: every event keeps the books, and with programs of legal widths the queues. -/
theorem booksKept : Obligations.BooksKept := fun _ _ hb h =>
  ⟨step_booksOk hb h, fun hset hq => step_queuesOk hb hset.2.2.2 hq h⟩

end Sys2Proof.Proofs
end

section
/-! SUPPORT. The character receiver of the control line, its line errors, and what a free control transmitter begins
(R176, R181 to R184, R186). -/

namespace Sys2Proof.Machine

/-! ### Frames on the control line -/

theorem fieldAt_of_prefix {l m : List Byte} (h : l <+: m) (off n : Nat) (hl : off + n ≤ l.length) :
    fieldAt l off n = fieldAt m off n := by
  obtain ⟨r, rfl⟩ := h
  exact (fieldAt_append_left l r off n hl).symm

section
variable (kind tag : Byte) (body : List Byte)

@[simp] theorem ctlCovered_length : (ctlCovered kind tag body).length = body.length + 4 := by
  simp [ctlCovered]
  omega

variable {body} (hb : body.length ≤ 1024)
include hb

theorem ctlCovered_length_field (check : List Byte) :
    fieldAt (ctlCovered kind tag body ++ check) 0 2 = body.length + 2 := by
  unfold ctlCovered
  rw [List.append_assoc, fieldAt_be_append, Nat.mod_eq_of_lt (by omega)]

/-- A frame that is not yet whole is read on (R181). -/
theorem readByte_of_prefix {got check : List Byte} (hcheck : check.length = 2)
    (hgot : got <+: ctlCovered kind tag body ++ check) (hne : got ≠ ctlCovered kind tag body ++ check) (s : State) :
    readByte got s = keepReading got s := by
  have hlen : got.length < body.length + 6 := by
    have hle := hgot.length_le
    have hwhole : (ctlCovered kind tag body ++ check).length = body.length + 6 := by simp [hcheck]
    rcases Nat.lt_or_ge got.length (body.length + 6) with h | h
    · exact h
    · exact absurd (hgot.eq_of_length (by omega)) hne
  unfold readByte
  dsimp only
  by_cases h2 : got.length < 2
  · rw [if_pos h2]
  have hfield : fieldAt got 0 2 = body.length + 2 :=
    (fieldAt_of_prefix hgot 0 2 (by omega)).trans (ctlCovered_length_field kind tag hb check)
  rw [if_neg h2, hfield]
  split
  · rw [if_neg (by omega)]
  · rw [if_pos (by omega)]

/-- The last byte of a frame with a good CRC queues its request; with a wrong one it is a line error (R181, R184). -/
theorem readByte_whole (x y : Byte) (s : State) : readByte (ctlCovered kind tag body ++ [x, y]) s =
    if x.toNat * 256 + y.toNat = (crc16 (ctlCovered kind tag body)).toNat then
      queueRequest ⟨kind, tag, body⟩ (backToHunting s)
    else discardFrame .crc s := by
  have hlen : (ctlCovered kind tag body ++ [x, y]).length = body.length + 6 := by simp
  have hcover : 2 + (body.length + 2) = (ctlCovered kind tag body).length := by simp; omega
  unfold readByte
  dsimp only
  rw [ctlCovered_length_field kind tag hb, hlen, if_neg (by omega), if_neg (by omega), if_neg (by omega), hcover,
    List.drop_left, List.take_left]
  have hread : readBE [x, y] = x.toNat * 256 + y.toNat := by simp [readBE]
  have hfields : fieldAt (ctlCovered kind tag body ++ [x, y]) 2 1 = kind.toNat ∧
      fieldAt (ctlCovered kind tag body ++ [x, y]) 3 1 = tag.toNat ∧
      ((ctlCovered kind tag body ++ [x, y]).drop 4).take (body.length + 2 - 2) = body := by
    unfold ctlCovered
    rw [List.append_assoc]
    refine ⟨?_, ?_, ?_⟩
    · rw [fieldAt_skip _ _ _ _ _ (by omega)]
      exact fieldAt_cons_zero ..
    · rw [fieldAt_skip _ _ _ _ _ (by omega)]
      exact fieldAt_cons_zero ..
    · show (body ++ [x, y]).take body.length = body
      exact List.take_left
  obtain ⟨hkind, htag, hbody⟩ := hfields
  rw [hread, hkind, htag, hbody, BitVec.ofNat_toNat, BitVec.ofNat_toNat]
  rfl

end

theorem exec_ctlByteReceived {s : State} (h : s.phase = .running) (b : Byte) :
    exec (.ctlByteReceived b) s = .next (settle (byteEvent b s)) := if_pos h

theorem byteEvent_reading {s : State} {got : List Byte} (h : s.clc.rx = .reading got) (b : Byte) :
    byteEvent b s = readByte (got ++ [b]) s := by unfold byteEvent; rw [h]

theorem byteEvent_hunting {s : State} (h : s.clc.rx = .hunting) (b : Byte) :
    byteEvent b s = if b = 0xC5#8 then keepReading [] s else countSkipped s := by unfold byteEvent; rw [h]

theorem queueRequest_of_room (r : CtlFrame) {s : State} (h : s.clc.requests.length < 4) :
    queueRequest r s = ({ s with clc := { s.clc with requests := s.clc.requests ++ [r] } } : State).modClcCtr
      fun c => { c with received := sat32 (c.received + 1) } := if_pos h

theorem queueRequest_of_full (r : CtlFrame) {s : State} (h : 4 ≤ s.clc.requests.length) :
    queueRequest r s = lineError .overrun s := if_neg (Nat.not_lt.mpr h)

/-- The bytes of a frame after its start byte, received by a receiver that has read the first of them. -/
theorem runAll_frame_bytes {s : State} {kind tag : Byte} {body got rest : List Byte} (hb : body.length ≤ 1024)
    (hs : s.phase = .running) (hset : s.settled) (hroom : s.clc.requests.length < 4) (hrest : rest ≠ [])
    (hframe : got ++ rest = ctlCovered kind tag body ++ be 2 (crc16 (ctlCovered kind tag body)).toNat) :
    runAll (rest.map .ctlByteReceived) (keepReading got s) =
      .next { s with clc := { s.clc with
        rx := .hunting, gap := .stopped, requests := s.clc.requests ++ [⟨kind, tag, body⟩]
        ctr := { s.clc.ctr with received := sat32 (s.clc.ctr.received + 1) } } } := by
  induction rest generalizing got with
  | nil => exact absurd rfl hrest
  | cons b rest ih =>
    have hrun : exec (.ctlByteReceived b) (keepReading got s) =
        .next (settle (readByte (got ++ [b]) (keepReading got s))) := by
      rw [exec_ctlByteReceived (s := keepReading got s) hs, byteEvent_reading (s := keepReading got s) rfl]
    rw [List.map_cons, runAll, hrun]
    dsimp only
    cases rest with
    | nil =>
      obtain ⟨x, y, hxy⟩ : ∃ x y, be 2 (crc16 (ctlCovered kind tag body)).toNat = [x, y] := ⟨_, _, rfl⟩
      have hcrc : x.toNat * 256 + y.toNat = (crc16 (ctlCovered kind tag body)).toNat := by
        have h := readBE_be 2 (crc16 (ctlCovered kind tag body)).toNat
        rw [hxy, Nat.mod_eq_of_lt (by have := (crc16 (ctlCovered kind tag body)).isLt; omega)] at h
        rw [← h]
        simp [readBE]
      rw [hframe, hxy, readByte_whole kind tag hb, if_pos hcrc]
      rw [queueRequest_of_room _ (s := backToHunting (keepReading got s)) hroom]
      exact congrArg _ (settle_eq_of_settled hset)
    | cons c rest =>
      have hkeep : readByte (got ++ [b]) (keepReading got s) = keepReading (got ++ [b]) s := by
        refine (readByte_of_prefix kind tag hb (be_length 2 (crc16 (ctlCovered kind tag body)).toNat) ?_ ?_ _).trans rfl
        · exact ⟨c :: rest, by rw [← hframe]; simp⟩
        · intro he
          rw [← hframe] at he
          simp at he
      have hrest : settle (keepReading (got ++ [b]) s) = keepReading (got ++ [b]) s := settle_eq_of_settled hset
      rw [hkeep, hrest]
      exact ih (List.cons_ne_nil c rest) (by rw [← hframe]; simp)

/-! ### The order of notices (R176) -/

theorem Notice.before_iff {a b : Notice} :
    a.before b = true ↔ b.level < a.level ∨ a.level = b.level ∧ a.key < b.key := by
  unfold Notice.before
  simp

theorem selectNotice_first {l : List Notice} {n : Notice} (h : selectNotice l = some n) :
    n ∈ l ∧ ∀ m ∈ l, ¬m.before n = true := by
  induction l generalizing n with
  | nil => exact nomatch h
  | cons a l ih =>
    unfold selectNotice at h
    split at h
    · next hnone =>
      obtain rfl := Option.some.inj h
      rw [selectNotice_eq_none] at hnone
      rw [hnone]
      refine ⟨List.mem_cons_self, fun m hm => ?_⟩
      rw [List.mem_singleton.mp hm, Notice.before_iff]
      omega
    · next b hb =>
      obtain ⟨hmem, hfirst⟩ := ih hb
      split at h
      · next hlt =>
        obtain rfl := Option.some.inj h
        refine ⟨List.mem_cons_of_mem a hmem, fun m hm => ?_⟩
        rcases List.mem_cons.mp hm with rfl | hm
        · rw [Notice.before_iff] at hlt ⊢
          omega
        · exact hfirst m hm
      · next hge =>
        obtain rfl := Option.some.inj h
        refine ⟨List.mem_cons_self, fun m hm => ?_⟩
        rcases List.mem_cons.mp hm with rfl | hm
        · rw [Notice.before_iff]
          omega
        · have hb := hfirst m hm
          rw [Notice.before_iff] at hge hb ⊢
          omega

theorem NoticeClass.code_inj {a b : NoticeClass} (h : a.code = b.code) : a = b := by
  revert h
  cases a <;> cases b <;> decide

theorem Notice.key_bounds (n : Notice) : n.cls.code.val * 64 ≤ n.key ∧ n.key < (n.cls.code.val + 1) * 64 := by
  unfold Notice.key
  split
  · next p _ => have := p.isLt; omega
  · omega

/-- The place of an entry in the pending set, by class and scope. -/
theorem Notice.key_not_lt {a b : Notice} (h : ¬b.key < a.key) :
    a.cls.code < b.cls.code ∨ (a.cls = b.cls ∧
      match a.scope, b.scope with
      | some p, some q => p ≤ q
      | some _, none => True
      | none, some _ => False
      | none, none => True) := by
  have ha := a.key_bounds
  have hb := b.key_bounds
  by_cases hcls : a.cls = b.cls
  · refine .inr ⟨hcls, ?_⟩
    unfold Notice.key at h
    rw [hcls] at h
    cases ha : a.scope with
    | none =>
      cases hb : b.scope with
      | none => trivial
      | some q =>
        simp only [ha, hb] at h
        have := q.isLt
        omega
    | some p =>
      cases hb : b.scope with
      | none => trivial
      | some q =>
        simp only [ha, hb] at h
        exact Fin.le_def.mpr (by omega)
  · refine .inl (Fin.lt_def.mpr ?_)
    have hne : a.cls.code.val ≠ b.cls.code.val := fun he => hcls (NoticeClass.code_inj (Fin.ext he))
    omega

end Sys2Proof.Machine

namespace Sys2Proof.Proofs

open Sys2Proof Sys2Proof.Machine

/-- Settles O16, by the number of bytes still to come. -/
theorem controlFrameIsQueued : Obligations.ControlFrameIsQueued := by
  intro s kind tag body hs hset hrx hroom hb
  have hstart : exec (.ctlByteReceived 0xC5#8) s = .next (keepReading [] s) := by
    rw [exec_ctlByteReceived hs, byteEvent_hunting hrx, if_pos rfl]
    exact congrArg _ (settle_eq_of_settled hset)
  unfold ctlFrame
  rw [List.map_cons, runAll, hstart]
  dsimp only
  exact runAll_frame_bytes hb hs hset hroom (by simp [ctlCovered, be]) rfl

/-- Settles O17, cause by cause. -/
theorem lineErrorsAreCounted : Obligations.LineErrorsAreCounted := by
  intro s hs hlane
  have herror (cause : LineCause) : settle (discardFrame cause s) = ctlPump (discardFrame cause s) :=
    settle_eq_ctlPump hlane
  have hskip (hline : s.lineSettled) : settle (countSkipped s) = countSkipped s := settle_eq_of_settled ⟨hlane, hline⟩
  refine ⟨fun bs hrx => ?_, fun bs start hrx hgap hdue => ?_, fun b0 b1 hrx hlen => ?_,
    fun kind tag body x y hb hrx hcrc => ?_, fun kind tag body x y hb hfull hrx hcrc => ?_, fun hrx hline => ⟨?_, fun b hne => ?_⟩⟩
  · have hexec : exec .ctlFramingError s = .next (settle (framingEvent s)) := if_pos hs
    unfold framingEvent at hexec
    rw [hexec, hrx]
    exact congrArg _ (herror .framing)
  · have hexec : exec .interByteGapExpiry s = .next (settle (gapEvent s)) := if_pos hs
    have hgapDue : s.gapDue = true := by
      unfold State.gapDue Timer.due
      rw [hrx, hgap]
      simpa using hdue
    unfold gapEvent at hexec
    rw [hexec, if_pos hgapDue]
    exact congrArg _ (herror .gap)
  · rw [exec_ctlByteReceived hs, byteEvent_reading hrx]
    have hread : readByte ([b0] ++ [b1]) s = discardFrame .length s := by
      have hfield : fieldAt ([b0] ++ [b1]) 0 2 = b0.toNat * 256 + b1.toNat := by simp [fieldAt, readBE]
      unfold readByte
      dsimp only
      rw [hfield, if_neg (by simp), if_pos (by rfl), if_pos (by omega)]
    rw [hread]
    exact congrArg _ (herror .length)
  · rw [exec_ctlByteReceived hs, byteEvent_reading hrx, List.append_assoc]
    show Host.Outcome.next (settle (readByte (ctlCovered kind tag body ++ [x, y]) s)) = _
    rw [readByte_whole kind tag hb, if_neg hcrc]
    exact congrArg _ (herror .crc)
  · rw [exec_ctlByteReceived hs, byteEvent_reading hrx, List.append_assoc]
    show Host.Outcome.next (settle (readByte (ctlCovered kind tag body ++ [x, y]) s)) = _
    rw [readByte_whole kind tag hb, if_pos hcrc]
    rw [queueRequest_of_full _ (s := backToHunting s) hfull]
    exact congrArg _ (herror .overrun)
  · have hexec : exec .ctlFramingError s = .next (settle (framingEvent s)) := if_pos hs
    unfold framingEvent at hexec
    rw [hexec, hrx]
    exact congrArg _ (hskip hline)
  · rw [exec_ctlByteReceived hs, byteEvent_hunting hrx, if_neg (show b ≠ 0xC5#8 from hne)]
    exact congrArg _ (hskip hline)

/-- Settles O18, by what the free control transmitter finds. -/
theorem freeLineSendsRepliesFirst : Obligations.FreeLineSendsRepliesFirst := by
  intro s hs hlane hasked
  have hexec : exec .ctlTransmitComplete s = .next (ctlPump (lineFree s)) := by
    have hevent : exec .ctlTransmitComplete s = .next (settle (lineFreeEvent s)) := if_pos hs
    unfold lineFreeEvent at hevent
    rw [hevent, if_neg (by simp [hasked])]
    exact congrArg _ (settle_eq_ctlPump hlane)
  unfold ctlPump lineFree at hexec
  refine ⟨fun r rest hr => ?_, fun n hr hn => ?_, fun hr hempty => ?_⟩
  · simpa [hr] using hexec
  · simpa [hr, hn] using hexec
  · simpa [hr, hempty, selectNotice] using hexec

/-- Settles O19: the entry selected is one that no other goes before. -/
theorem noticeSelectionOrder : Obligations.NoticeSelectionOrder := by
  refine fun l => ⟨selectNotice_eq_none, fun n hn => ?_⟩
  obtain ⟨hmem, hfirst⟩ := selectNotice_first hn
  refine ⟨hmem, fun m hm => ?_⟩
  have hnot := hfirst m hm
  rw [Notice.before_iff] at hnot
  by_cases hlevel : m.level < n.level
  · exact .inl hlevel
  · exact .inr ⟨by omega, Notice.key_not_lt (by omega)⟩

end Sys2Proof.Proofs
end

section
/-! SUPPORT. What a taken request leaves: one reply with a status byte, a Control Line Controller that nothing else has
changed, and after a refusal the state as it was (R185, R187). -/

namespace Sys2Proof.Machine

/-- An effect composes one reply, leaves the CLC to it, and after a refusal has changed nothing. -/
structure Proper (s : State) (e : Effect) : Prop where
  clc : e.1.clc = s.clc
  reply : ∃ st fields, e.2 = st :: fields ∧ (st ≠ 0 → st ≠ 1 → e.1 = s)

section
variable {s t : State}

theorem proper_refuse (st : Status) (f : List Byte) (s : State) : Proper s (refuse st f s) :=
  ⟨rfl, _, _, rfl, fun _ _ => rfl⟩

theorem proper_same (st : Status) (f : List Byte) (s : State) : Proper s (s, reply st f) :=
  ⟨rfl, _, _, rfl, fun _ _ => rfl⟩

theorem proper_ok (h : t.clc = s.clc) (f : List Byte) : Proper s (t, reply .ok f) :=
  ⟨h, _, _, rfl, fun h0 => absurd rfl h0⟩

theorem proper_queued (h : t.clc = s.clc) (f : List Byte) : Proper s (t, reply .queued f) :=
  ⟨h, _, _, rfl, fun _ h1 => absurd rfl h1⟩

theorem proper_withPort {f : Port → State → Effect} (hf : ∀ p, Proper s (f p s)) (b : List Byte) :
    Proper s (withPort f b s) := by
  unfold withPort
  split
  · exact proper_refuse .range [] s
  · exact hf _

theorem proper_checked {run : List Byte → State → Effect} {kind : Byte} {b : List Byte} (h : Proper s (run b s)) :
    Proper s (checked kind b run s) := by
  unfold checked
  split
  · exact h
  · exact proper_refuse .format [] s

/-! ### Requests of the link -/

theorem teardown_clc (o : EpisodeOutcome) (s : State) : (teardown o s).clc = s.clc := by
  have hports (l : List Port) := (Quiet.fold (quiet_teardownPort o) l s).clc
  have hfreed (u : State) : (freeHeldGates u).clc = u.clc := (Quiet.fold (fun v i => quiet_freeGateOf i v) _ u).clc
  unfold teardown
  generalize List.finRange 48 = l
  exact (hfreed _).trans (hports l)

theorem stopLink_clc (s : State) : (stopLink s).clc = s.clc := by
  obtain ⟨_, _, _, _, _, _, _, _, _, h, _⟩ := fabPump_frame (s.setLink .stopping)
  exact h

theorem proper_linkStart (b : List Byte) : Proper s (linkStart b s) := by
  unfold linkStart
  split
  · exact proper_ok (by rfl) _
  · exact proper_same .state _ s

theorem proper_linkStop (b : List Byte) : Proper s (linkStop b s) := by
  unfold linkStop
  split
  · refine proper_ok ?_ _
    exact (stopLink_clc _).trans (teardown_clc .linkStop s)
  · refine proper_ok ?_ _
    exact (stopLink_clc _).trans (teardown_clc .linkStop s)
  · refine proper_ok ?_ _
    exact stopLink_clc _
  · exact proper_same .ok _ s
  · exact proper_same .ok _ s

theorem proper_linkReset (b : List Byte) : Proper s (linkReset b s) := by
  unfold linkReset
  split
  · refine proper_ok ?_ _
    rw [show (State.setLink .syncing (clearSequences (teardown .linkReset s))).clc = (teardown .linkReset s).clc from by
      generalize teardown .linkReset s = u; rfl, teardown_clc]
  · refine proper_ok ?_ _
    rw [show (State.setLink .syncing (clearSequences (teardown .linkReset s))).clc = (teardown .linkReset s).clc from by
      generalize teardown .linkReset s = u; rfl, teardown_clc]
  · exact proper_ok (by rfl) _
  · exact proper_same .state _ s
  · exact proper_same .state _ s

/-! ### Requests of a port -/

theorem proper_setPortOn (b : List Byte) (p : Port) : Proper s (setPortOn b p s) := by
  unfold setPortOn
  split
  · exact proper_refuse .state [] s
  · split
    · exact proper_refuse .range _ s
    · exact proper_ok (by rfl) _

theorem proper_armOn (p : Port) : Proper s (armOn p s) := by
  unfold armOn
  split
  · exact proper_ok (by rfl) _
  · exact proper_ok (by rfl) _

theorem proper_disarmOn (p : Port) : Proper s (disarmOn p s) := by
  unfold disarmOn
  refine proper_ok ?_ _
  split
  · exact (quiet_endEpisode p .disarmed s).clc
  · split <;> rfl

theorem proper_startReliefChecked (b : List Byte) (p : Port) : Proper s (startReliefChecked b p s) := by
  unfold startReliefChecked
  split
  · exact proper_refuse .range [] s
  split
  · exact proper_refuse .notArmed [] s
  split
  · exact proper_refuse .empty [] s
  next q _ _ _ =>
    unfold startReliefOn
    split
    · split
      · exact proper_queued (by rfl) _
      · exact proper_refuse .busy _ s
    · exact proper_ok (quiet_openEpisode p .manual q s).clc _

theorem proper_stopReliefOn (p : Port) : Proper s (stopReliefOn p s) := by
  unfold stopReliefOn
  refine proper_ok ?_ _
  split
  · exact (quiet_endEpisode p .aborted s).clc
  · rfl

theorem proper_pauseOn (p : Port) : Proper s (pauseOn p s) := by
  unfold pauseOn
  split
  · exact proper_ok (by rfl) _
  · exact proper_refuse .state [] s

theorem proper_resumeOn (p : Port) : Proper s (resumeOn p s) := by
  unfold resumeOn
  split
  · refine proper_ok ?_ _
    exact (quiet_rerateIfChanged p _ _).clc.trans (quiet_refill p _).clc
  · exact proper_refuse .state [] s

/-! ### Requests of the tables -/

theorem proper_setLevels (b : List Byte) : Proper s (setLevels b s) := by
  unfold setLevels
  split
  · dsimp only
    split
    · exact proper_refuse .order _ s
    · exact proper_ok (by rfl) _
  · exact proper_refuse .range [] s

theorem proper_getLevels (b : List Byte) : Proper s (getLevels b s) := by
  unfold getLevels
  split
  · exact proper_same .ok _ s
  · exact proper_refuse .range [] s

theorem proper_setWindow (b : List Byte) : Proper s (setWindow b s) := by
  unfold setWindow
  split
  · exact proper_refuse .range _ s
  split
  · exact proper_refuse .align [] s
  split
  · exact proper_refuse .overlap _ s
  · exact proper_ok (by rfl) _

theorem proper_getWindow (b : List Byte) : Proper s (getWindow b s) := by
  unfold getWindow
  split
  · exact proper_same .ok _ s
  split
  · exact proper_same .ok _ s
  · exact proper_refuse .range [] s

theorem proper_setDefaultClass (b : List Byte) : Proper s (setDefaultClass b s) := by
  unfold setDefaultClass
  split
  · exact proper_refuse .range _ s
  · exact proper_ok (by rfl) _

theorem proper_writeProgram (b : List Byte) : Proper s (writeProgram b s) := by
  unfold writeProgram
  split
  · exact proper_refuse .range _ s
  split
  · exact proper_refuse .inUse _ s
  · dsimp only
    split
    · exact proper_refuse .noRoom _ s
    · exact proper_ok (by rfl) _

theorem proper_readProgram (b : List Byte) : Proper s (readProgram b s) := by
  unfold readProgram
  split
  · exact proper_refuse .range [] s
  · exact proper_same .ok _ s

theorem proper_readTable (b : List Byte) : Proper s (readTable b s) := by
  unfold readTable
  dsimp only
  split
  · exact proper_refuse .range _ s
  split
  · exact proper_refuse .range _ s
  · exact proper_same .ok _ s

theorem proper_setNoticeLevels (b : List Byte) : Proper s (setNoticeLevels b s) := by
  unfold setNoticeLevels
  split
  · exact proper_refuse .range _ s
  · exact proper_ok (by rfl) _

/-- Every request but RESET_DEVICE leaves the CLC to its reply. -/
theorem proper_effectOf {c : Instr} {r : CtlFrame} (h : requestOf c = some r) (hreset : ¬(r.kind = 0x02 ∧ r.body = []))
    (s : State) : Proper s (effectOf c s) := by
  cases c <;> cases h
  case resetDevice tag b =>
    have hb : ¬bodyLength 0x02 b = some b.length := fun hlen => by
      have h0 : bodyLength 0x02 b = some 0 := rfl
      have hnil : b.length = 0 := (Option.some.inj (h0.symm.trans hlen)).symm
      exact hreset ⟨rfl, List.eq_nil_of_length_eq_zero hnil⟩
    show Proper s (checked 0x02 b resetDevice s)
    unfold checked
    rw [if_neg hb]
    exact proper_refuse .format [] s
  case identify => exact proper_checked (proper_same .ok _ s)
  case status => exact proper_checked (proper_same .ok _ s)
  case time => exact proper_checked (proper_same .ok _ s)
  case setDevice => exact proper_checked (proper_ok (by rfl) _)
  case linkStart tag b => exact proper_checked (proper_linkStart b)
  case linkStop tag b => exact proper_checked (proper_linkStop b)
  case linkReset tag b => exact proper_checked (proper_linkReset b)
  case setPort tag b => exact proper_checked (proper_withPort (proper_setPortOn b) b)
  case getPort tag b => exact proper_checked (proper_withPort (fun _ => proper_ok (by rfl) _) b)
  case arm tag b => exact proper_checked (proper_withPort proper_armOn b)
  case disarm tag b => exact proper_checked (proper_withPort proper_disarmOn b)
  case startRelief tag b => exact proper_checked (proper_withPort (proper_startReliefChecked b) b)
  case stopRelief tag b => exact proper_checked (proper_withPort proper_stopReliefOn b)
  case pause tag b => exact proper_checked (proper_withPort proper_pauseOn b)
  case resume tag b => exact proper_checked (proper_withPort proper_resumeOn b)
  case setLevels tag b => exact proper_checked (proper_setLevels b)
  case getLevels tag b => exact proper_checked (proper_getLevels b)
  case setWindow tag b => exact proper_checked (proper_setWindow b)
  case getWindow tag b => exact proper_checked (proper_getWindow b)
  case setDefaultClass tag b => exact proper_checked (proper_setDefaultClass b)
  case writeProgram tag b => exact proper_checked (proper_writeProgram b)
  case readProgram tag b => exact proper_checked (proper_readProgram b)
  case readTable tag b => exact proper_checked (proper_readTable b)
  case clearHistory => exact proper_checked (proper_ok (by rfl) _)
  case setNoticeLevels tag b => exact proper_checked (proper_setNoticeLevels b)
  case readFault => exact proper_checked (proper_ok (by rfl) _)
  case unknownRequest => exact proper_refuse .unknown [] s

end

/-- A request that the CLC takes: its effect on the state with the request out of the queue, and its reply (R184 to
R186). -/
theorem exec_taken {c : Instr} {r : CtlFrame} {s : State} (h : requestOf c = some r) (hk : kindUnknown c = true)
    (ht : Takes s r) {e : Effect} (he : effectOf c { s with clc := s.clc.taken } = e) (hclc : e.1.clc = s.clc.taken) :
    exec c s = .next { fabPump e.1 with clc := s.clc.answered ⟨replyKind r.kind, r.tag, e.2⟩ } := by
  rw [exec_request h hk]
  unfold onEvent
  rw [if_pos ht.1, requestEvent_taken _ ht]
  unfold answer
  rw [settle_putReply, he, hclc, Clc.taken_replied]

/-- A taken request that changes nothing but the CLC. -/
theorem exec_unchanged {c : Instr} {r : CtlFrame} {s : State} {b : List Byte} (h : requestOf c = some r)
    (hk : kindUnknown c = true) (ht : Takes s r) (hlane : s.laneSettled)
    (he : effectOf c { s with clc := s.clc.taken } = ({ s with clc := s.clc.taken }, b)) :
    exec c s = .next { s with clc := s.clc.answered ⟨replyKind r.kind, r.tag, b⟩ } := by
  have hpump : fabPump { s with clc := s.clc.taken } = { s with clc := s.clc.taken } := fabPump_eq_of_laneSettled hlane
  refine (exec_taken h hk ht he rfl).trans ?_
  dsimp only
  rw [hpump]

/-- The kinds of Table 12-3 are below 0x80. -/
theorem replyKind_of_known {kind : Byte} (h : knownKind kind = true) : replyKind kind = kind + 128 := by
  revert h
  revert kind
  decide

theorem wellFormed_kindUnknown {c : Instr} (h : wellFormed c = true) : kindUnknown c = true := by
  unfold wellFormed at h
  rw [Bool.and_eq_true] at h
  exact h.2

end Sys2Proof.Machine

namespace Sys2Proof.Proofs

open Sys2Proof Sys2Proof.Machine

/-- Settles O20, by what every request's effect leaves. -/
theorem oneReplyAndRefusalsChangeNothing : Obligations.OneReplyAndRefusalsChangeNothing := by
  intro c r s hr hw ht hlane hreset
  obtain ⟨hclc, st, fields, hreply, hsame⟩ := proper_effectOf hr hreset { s with clc := s.clc.taken }
  refine ⟨st, fields, _, exec_taken hr (wellFormed_kindUnknown hw) ht rfl hclc, by rw [hreply], fun h0 h1 => ?_⟩
  have hpump : fabPump { s with clc := s.clc.taken } = { s with clc := s.clc.taken } := fabPump_eq_of_laneSettled hlane
  rw [hsame h0 h1, hpump]

/-- Settles O21: both refusals come before the request is looked at. -/
theorem unknownAndFormatRefusals : Obligations.UnknownAndFormatRefusals := by
  refine fun s hlane => ⟨fun kind tag body hkind ht => ?_, fun c r hr hkind hlen ht hw => ?_⟩
  · exact exec_unchanged (c := .unknownRequest kind tag body) rfl (by simp [kindUnknown, hkind]) ht hlane rfl
  · have hformat : effectOf c { s with clc := s.clc.taken } = refuse .format [] { s with clc := s.clc.taken } := by
      cases c <;> cases hr
      case unknownRequest =>
        simp only [wellFormed, kindUnknown, hkind, Bool.not_true, Bool.and_false, Bool.false_eq_true] at hw
      all_goals exact if_neg hlen
    rw [exec_unchanged hr (wellFormed_kindUnknown hw) ht hlane hformat, replyKind_of_known hkind]
    rfl

end Sys2Proof.Proofs
end

section
/-! SUPPORT. Layouts of bytes, requests that change nothing but settings, and what they answer; the pending set, the
history ring and the fault snapshot (R33, R34, R171 to R179, R188 to R190). -/

namespace Sys2Proof.Machine

/-! ### Layouts -/

/-- Numbers written one after the other, each with its number of bytes. -/
def layout (l : List (Nat × Nat)) : List Byte := l.flatMap fun x => be x.1 x.2

/-- The fields of such a run of bytes, each with its offset. -/
def placedFrom : Nat → List (Nat × Nat) → List (Nat × Nat × Nat)
  | _, [] => []
  | off, x :: l => (off, x.1, x.2) :: placedFrom (off + x.1) l

/-- The number of its bytes. -/
def laidLength (l : List (Nat × Nat)) : Nat := (l.map (·.1)).sum

theorem layout_length (l : List (Nat × Nat)) : (layout l).length = laidLength l := by
  simp [layout, laidLength, List.length_flatMap]

theorem laid_layout (l : List (Nat × Nat)) (before after : List Byte) :
    Laid (before ++ (layout l ++ after)) (placedFrom before.length l) := by
  induction l generalizing before with
  | nil => exact nofun
  | cons x l ih =>
    have hsplit : before ++ (layout (x :: l) ++ after) = (before ++ be x.1 x.2) ++ (layout l ++ after) := by
      simp [layout]
    rw [hsplit]
    intro y hy
    rcases List.mem_cons.mp hy with rfl | hy
    · dsimp only
      rw [List.append_assoc, fieldAt_append_right _ _ _ _ le_rfl, Nat.sub_self, fieldAt_be_append]
    · have h := ih (before ++ be x.1 x.2) y
      rw [List.length_append, be_length] at h
      exact h hy

/-- The fields of a record that begins with a layout. -/
theorem laid_of_layout {r : List Byte} {l : List (Nat × Nat)} {rest : List Byte} {fields : List (Nat × Nat × Nat)}
    (hr : r = layout l ++ rest) (hf : fields = placedFrom 0 l) : Laid r fields := by
  rw [hr, hf]
  exact laid_layout l [] rest

/-- Numbers of one width written one after the other. -/
theorem fieldAt_flatMap_be {α : Type} (n : Nat) (f : α → Nat) (l : List α) (j : Nat) (hj : j < l.length) (rest : List Byte) :
    fieldAt (l.flatMap (fun x => be n (f x)) ++ rest) (n * j) n = f l[j] % 256 ^ n := by
  induction l generalizing j with
  | nil => exact nomatch hj
  | cons x l ih =>
    rw [List.flatMap_cons, List.append_assoc]
    cases j with
    | zero => exact fieldAt_be_append n (f x) _
    | succ j =>
      rw [fieldAt_skip _ _ _ _ _ (by rw [Nat.mul_succ]; omega), Nat.mul_succ, Nat.add_sub_cancel]
      exact ih j (by simpa using hj)

/-! ### Requests that write beside the CLC -/

/-- A taken request that leaves the lane with nothing to begin. -/
theorem exec_answers {c : Instr} {r : CtlFrame} {s t : State} {b : List Byte} (h : requestOf c = some r)
    (hk : kindUnknown c = true) (ht : Takes s r) (hlane : t.laneSettled)
    (he : effectOf c { s with clc := s.clc.taken } = ({ t with clc := s.clc.taken }, b)) :
    exec c s = .next { t with clc := s.clc.answered ⟨replyKind r.kind, r.tag, b⟩ } := by
  have hpump : fabPump { t with clc := s.clc.taken } = { t with clc := s.clc.taken } := fabPump_eq_of_laneSettled hlane
  refine (exec_taken h hk ht he rfl).trans ?_
  dsimp only
  rw [hpump]

theorem checked_of_length {kind : Byte} {b : List Byte} {n : Nat} (hk : bodyLength kind b = some n) (hb : b.length = n)
    (run : List Byte → State → Effect) : checked kind b run = run b := by
  funext s
  unfold checked
  rw [hk, hb, if_pos rfl]

/-! ### Level sets -/

theorem readThresholds_getElem! (b : List Byte) {j : Nat} (hj : j < 15) :
    (readThresholds b)[j]! = fieldAt b (1 + 2 * j) 2 := by
  rw [getElem!_pos (readThresholds b) j hj]
  exact readThresholds_get b ⟨j, hj⟩

/-- The lowest threshold that is below the one before it (R33). -/
theorem firstDescent_eq {b : List Byte} {i : Nat} (h2 : 2 ≤ i) (h15 : i ≤ 15)
    (hi : fieldAt b (2 * i - 1) 2 < fieldAt b (2 * i - 3) 2)
    (hlow : ∀ j, 2 ≤ j → j < i → fieldAt b (2 * j - 3) 2 ≤ fieldAt b (2 * j - 1) 2) :
    firstDescent (readThresholds b) = some i := by
  obtain ⟨k, rfl⟩ : ∃ k, i = k + 2 := ⟨i - 2, by omega⟩
  have hat (j : Nat) (hj : j < 14) : (readThresholds b)[j + 1]! = fieldAt b (2 * (j + 2) - 1) 2 ∧
      (readThresholds b)[j]! = fieldAt b (2 * (j + 2) - 3) 2 := by
    rw [readThresholds_getElem! b (by omega), readThresholds_getElem! b (by omega),
      show 1 + 2 * (j + 1) = 2 * (j + 2) - 1 by omega, show 1 + 2 * j = 2 * (j + 2) - 3 by omega]
    exact ⟨rfl, rfl⟩
  have hfind : (List.range 14).find? (fun j => decide ((readThresholds b)[j + 1]! < (readThresholds b)[j]!)) = some k := by
    refine List.find?_range_eq_some.mpr ⟨?_, List.mem_range.mpr (by omega), fun j hj => ?_⟩
    · obtain ⟨h1, h2⟩ := hat k (by omega)
      rw [h1, h2]
      exact decide_eq_true hi
    · obtain ⟨h1, h2⟩ := hat j (by omega)
      rw [h1, h2]
      simpa using hlow (j + 2) (by omega) (by omega)
  unfold firstDescent
  rw [hfind]
  rfl

theorem firstDescent_none {b : List Byte} (h : ∀ j, 2 ≤ j → j ≤ 15 → fieldAt b (2 * j - 3) 2 ≤ fieldAt b (2 * j - 1) 2) :
    firstDescent (readThresholds b) = none := by
  rw [firstDescent_eq_none]
  intro j hj
  have hle := h (j + 2) (by omega) (by omega)
  have h1 := readThresholds_get b ⟨j, by omega⟩
  have h2 := readThresholds_get b ⟨j + 1, by omega⟩
  rw [show 2 * (j + 2) - 3 = 1 + 2 * j by omega, show 2 * (j + 2) - 1 = 1 + 2 * (j + 1) by omega] at hle
  exact (le_of_eq h1).trans (hle.trans (le_of_eq h2.symm))

theorem modAt_eq_set {α : Type} {n : Nat} (v : Vector α n) (i : Fin n) (x : α) :
    modAt v i (fun _ => x) = v.set i.val x i.isLt := by
  refine Vector.ext fun j hj => ?_
  by_cases h : j = i.val
  · subst h
    rw [Vector.getElem_set_self]
    exact modAt_get_self v i _
  · rw [Vector.getElem_set_ne _ _ fun e => h e.symm]
    exact modAt_get_ne v i ⟨j, hj⟩ _ fun e => h (congrArg Fin.val e)

/-! ### Notice levels -/

theorem readNoticeLevels_lowest {b : List Byte} (i : Fin 15) (hi : 15 < fieldAt b i.val 1)
    (hlow : ∀ j : Fin 15, j < i → fieldAt b j.val 1 ≤ 15) : readNoticeLevels b = .error i.val := by
  have hfind : (List.range 15).find? (fun j => decide (15 < fieldAt b j 1)) = some i.val :=
    List.find?_range_eq_some.mpr ⟨decide_eq_true hi, List.mem_range.mpr i.isLt, fun j hj => by
      simpa using hlow ⟨j, hj.trans i.isLt⟩ hj⟩
  unfold readNoticeLevels
  rw [hfind]

theorem readNoticeLevels_all {b : List Byte} (h : ∀ i : Fin 15, fieldAt b i.val 1 ≤ 15) :
    readNoticeLevels b = .ok (Vector.ofFn fun i => fieldAt b i.val 1) := by
  have hfind : (List.range 15).find? (fun j => decide (15 < fieldAt b j 1)) = none :=
    List.find?_eq_none.mpr fun j hj => by simpa using h ⟨j, List.mem_range.mp hj⟩
  unfold readNoticeLevels
  rw [hfind]

/-- The bytes of a body, each read and written again. -/
theorem bytes_of_fields {b : List Byte} {n : Nat} (hb : b.length = n) :
    ((Vector.ofFn fun i : Fin n => fieldAt b i.val 1).toList).flatMap (be 1) = b := by
  subst hb
  rw [Vector.toList_ofFn]
  have hone : ∀ i : Fin b.length, be 1 (fieldAt b i.val 1) = [b[i]] := fun i => by
    rw [be_fieldAt b i.val 1 (by omega), List.drop_eq_getElem_cons i.isLt]
    rfl
  rw [List.flatMap_def, List.map_ofFn]
  have hcomp : (be 1 ∘ fun i : Fin b.length => fieldAt b i.val 1) = fun i => [b[i]] := funext hone
  have hlist : List.ofFn (fun i : Fin b.length => b[i]) = b := List.ofFn_getElem
  rw [hcomp, show (fun i : Fin b.length => [b[i]]) = (fun x => [x]) ∘ fun i => b[i] from rfl, ← List.map_ofFn, hlist,
    ← List.flatMap_def, List.flatMap_singleton']

/-! ### The pending set (R174) -/

theorem Ern.pendingOk.unique {e : Ern} (h : e.pendingOk) {m n : Notice} (hm : m ∈ e.pendingSet) (hn : n ∈ e.pendingSet)
    (hcls : m.cls = n.cls) (hscope : m.scope = n.scope) : m = n := by
  obtain ⟨hsorted, _⟩ := h
  have hnodup : (e.pendingSet.map Notice.key).Nodup := List.pairwise_map.mpr (hsorted.imp fun hab => Nat.ne_of_lt hab)
  exact List.inj_on_of_nodup_map hnodup hm hn (Notice.key_inj.mpr ⟨hcls, hscope⟩)

end Sys2Proof.Machine

namespace Sys2Proof.Proofs

open Sys2Proof Sys2Proof.Machine

/-- Settles O54. -/
theorem identifyTimeStatus : Obligations.IdentifyTimeStatus := by
  refine fun s tag hlane => ⟨fun ht => ?_, fun ht => ?_, fun ht => ?_⟩
  · exact exec_unchanged (c := .identify tag []) rfl rfl ht hlane rfl
  · exact exec_unchanged (c := .time tag []) rfl rfl ht hlane rfl
  · refine ⟨_, exec_unchanged (c := .status tag []) rfl rfl ht hlane rfl, rfl, ?_, fun j hj => ?_⟩
    · exact laid_of_layout (l := [(1, s.flc.link.code), (1, s.flc.errCount), (1, s.flc.faultLimit)]) rfl rfl
    · have hvalues := fieldAt_flatMap_be 4 id (State.statusValues { s with clc := s.clc.taken }) j hj []
      rw [List.append_nil] at hvalues
      rw [fieldAt_append_right _ _ _ _ (by simp)]
      have hoff : 3 + 4 * j - (be 1 s.flc.link.code ++ be 1 s.flc.errCount ++ be 1 s.flc.faultLimit).length = 4 * j := by
        simp
      exact (congrArg (fun n => fieldAt _ n 4) hoff).trans hvalues

/-- Settles O55. -/
theorem levelSetsAreWrittenAndRead : Obligations.LevelSetsAreWrittenAndRead := by
  refine fun s tag hlane => ⟨fun b hb ht => ?_, fun kb ht => ?_⟩
  · have heffect (u : State) : effectOf (.setLevels tag b) u = setLevels b u :=
      congrFun (checked_of_length (n := 31) rfl hb setLevels) u
    refine ⟨fun hset => ?_, fun k hset => ⟨fun i h2 h15 hi hlow => ?_, fun hrise => ?_⟩⟩
    · refine exec_unchanged (c := .setLevels tag b) rfl rfl ht hlane ?_
      rw [heffect, setLevels, dif_neg (by omega)]
      rfl
    · refine exec_unchanged (c := .setLevels tag b) (b := [6, BitVec.ofNat 8 i]) rfl rfl ht hlane ?_
      rw [heffect, setLevels, dif_pos (by omega)]
      dsimp only
      rw [firstDescent_eq h2 h15 hi hlow]
      dsimp only
      rw [be_one]
      rfl
    · refine ⟨readThresholds b, readThresholds_get b, ?_⟩
      refine exec_answers (c := .setLevels tag b) (b := [0])
        (t := { s with oev := { s.oev with sets := s.oev.sets.set k.val (readThresholds b) k.isLt } }) rfl rfl ht hlane ?_
      rw [heffect, setLevels, dif_pos (by omega)]
      dsimp only
      rw [firstDescent_none hrise]
      have hk : (⟨fieldAt b 0 1, by omega⟩ : Fin 4) = k := Fin.ext hset
      simp only [hk, modAt_eq_set]
      rfl
  · have hfield : fieldAt [kb] 0 1 = kb.toNat := fieldAt_cons_zero kb []
    have heffect (u : State) : effectOf (.getLevels tag [kb]) u = getLevels [kb] u := rfl
    refine ⟨fun hset => ?_, fun k hset => ?_⟩
    · refine exec_unchanged (c := .getLevels tag [kb]) rfl rfl ht hlane ?_
      rw [heffect, getLevels, dif_neg (by omega)]
      rfl
    · refine ⟨(s.oev.sets[k]).toList.flatMap (be 2), ?_, fun i => ?_, ?_⟩
      · simp [List.length_flatMap]
      · have hlen : i.val < (s.oev.sets[k]).toList.length := by simp
        have hvalue := fieldAt_flatMap_be 2 id (s.oev.sets[k]).toList i.val hlen []
        rw [List.append_nil] at hvalue
        simpa using hvalue
      · refine exec_unchanged (c := .getLevels tag [kb]) rfl rfl ht hlane ?_
        have hk : (⟨fieldAt [kb] 0 1, by omega⟩ : Fin 4) = k := Fin.ext (hfield.trans hset)
        rw [heffect, getLevels, dif_pos (by omega)]
        simp only [hk]
        rfl

/-- Settles O59. -/
theorem deviceSettingsAndFault : Obligations.DeviceSettingsAndFault := by
  refine fun s tag hlane => ⟨fun fl age hage ht => ?_, fun ht => ?_, fun b hb ht => ?_, fun ht => ?_⟩
  · have hfault : max 1 (fieldAt (fl :: be 4 age) 0 1) = if fl.toNat = 0 then 1 else fl.toNat := by
      rw [fieldAt_cons_zero]
      split <;> omega
    have hlimit : min 1000000 (max 100 (fieldAt (fl :: be 4 age) 1 4)) =
        if age < 100 then 100 else if 1000000 < age then 1000000 else age := by
      rw [fieldAt_cons_succ, fieldAt_be, Nat.mod_eq_of_lt (by omega)]
      split
      · omega
      · split <;> omega
    have heffect (u : State) : effectOf (.setDevice tag (fl :: be 4 age)) u = setDevice (fl :: be 4 age) u := rfl
    dsimp only
    rw [← hfault, ← hlimit]
    exact exec_answers (c := .setDevice tag (fl :: be 4 age)) (t := { s with
      flc := { s.flc with faultLimit := max 1 (fieldAt (fl :: be 4 age) 0 1) }
      rtb := { s.rtb with ageLimit := min 1000000 (max 100 (fieldAt (fl :: be 4 age) 1 4)) } }) rfl rfl ht hlane (heffect _)
  · exact exec_answers (c := .clearHistory tag []) (t := { s with ern := { s.ern with history := [] } }) rfl rfl ht hlane
      (congrArg₂ Prod.mk rfl (congrArg _ (be_one _)))
  · have heffect (u : State) : effectOf (.setNoticeLevels tag b) u = setNoticeLevels b u :=
      congrFun (checked_of_length (n := 15) rfl hb setNoticeLevels) u
    refine ⟨fun i hi hlow => ?_, fun hall => ⟨Vector.ofFn fun i => fieldAt b i.val 1, fun i => by simp, ?_⟩⟩
    · refine exec_unchanged (c := .setNoticeLevels tag b) (b := [5, BitVec.ofNat 8 i.val]) rfl rfl ht hlane ?_
      rw [heffect, setNoticeLevels, readNoticeLevels_lowest i hi hlow]
      dsimp only
      rw [be_one]
      rfl
    · refine exec_answers (c := .setNoticeLevels tag b) (b := 0 :: b) (t := { s with ern := { s.ern with
          levels := Vector.ofFn fun i => fieldAt b i.val 1
          pendingSet := adjustPending (Vector.ofFn fun i => fieldAt b i.val 1) s.ern.pendingSet } }) rfl rfl ht hlane ?_
      rw [heffect, setNoticeLevels, readNoticeLevels_all hall]
      dsimp only
      rw [bytes_of_fields hb]
      rfl
  · refine exec_answers (c := .readFault tag []) (t := { s with ern := { s.ern with fault := none } }) rfl rfl ht hlane ?_
    have hbytes : reply .ok (faultBytes s.ern.fault) = match s.ern.fault with
        | none => List.replicate 14 0
        | some f => [0, 1, BitVec.ofNat 8 f.kind.code] ++ be 2 f.seq.toNat ++ be 1 f.index ++ be 4 f.time.toNat
          ++ be 4 f.later := by
      cases s.ern.fault with
      | none => decide
      | some f => simp [faultBytes, reply, statusByte, be_one]
    exact congrArg₂ Prod.mk rfl hbytes

/-- Settles O60. -/
theorem noticesHistoryAndFault : Obligations.NoticesHistoryAndFault := by
  refine ⟨fun e c sc ep v time hok => ⟨fun h0 => if_pos h0, fun n hlevel hn hcls hscope => ?_, fun hlevel hnew => ?_⟩,
    fun e x hlen => ?_, fun e k seq index time => ?_⟩
  · have hany : (e.pendingSet.any fun n => n.cls == c && n.scope == sc) = true :=
      List.any_eq_true.mpr ⟨n, hn, by simp [hcls, hscope]⟩
    have hraise : e.raise c sc ep v time = { e with
        pendingSet := e.pendingSet.map fun n => if n.cls = c ∧ n.scope = sc then
          ⟨c, sc, e.level c, min 255 (n.count + 1), ep, v, time⟩ else n
        coalesced := sat32 (e.coalesced + 1) } := by
      unfold Ern.raise
      rw [if_neg hlevel, if_pos hany]
    rw [hraise]
    refine ⟨rfl, fun m => ?_⟩
    rw [List.mem_map]
    constructor
    · rintro ⟨a, ha, rfl⟩
      split
      · next hkey => exact .inr (by rw [hok.unique ha hn (hkey.1.trans hcls.symm) (hkey.2.trans hscope.symm)])
      · next hkey => exact .inl ⟨ha, hkey⟩
    · rintro (⟨hm, hkey⟩ | rfl)
      · exact ⟨m, hm, if_neg hkey⟩
      · exact ⟨n, hn, if_pos ⟨hcls, hscope⟩⟩
  · have hany : ¬(e.pendingSet.any fun n => n.cls == c && n.scope == sc) = true := fun hany => by
      obtain ⟨n, hn, hkey⟩ := List.any_eq_true.mp hany
      exact hnew n hn (by simpa using hkey)
    have hraise : e.raise c sc ep v time =
        { e with pendingSet := insertNotice ⟨c, sc, e.level c, 1, ep, v, time⟩ e.pendingSet } := by
      unfold Ern.raise
      rw [if_neg hlevel, if_neg hany]
    rw [hraise]
    exact ⟨rfl, fun m => mem_insertNotice.trans or_comm⟩
  · unfold Ern.append
    split
    · next hlt => rw [if_neg (by omega), if_neg (by omega)]
    · next hge => rw [if_pos (by omega), if_pos (by omega), List.drop_one]
  · unfold Ern.offer
    cases e.fault <;> rfl

end Sys2Proof.Proofs
end

section
/-! SUPPORT. SET_PORT and GET_PORT, and the rates of the gates of a step (R85, R86, R166, R167). -/

namespace Sys2Proof.Machine

theorem bodyPort_eq {b : List Byte} {p : Port} (h : fieldAt b 0 1 = p.val) : bodyPort b = some p := by
  unfold bodyPort
  rw [dif_pos (by omega)]
  exact congrArg some (Fin.ext h)

theorem withPort_eq {b : List Byte} {p : Port} (h : fieldAt b 0 1 = p.val) (f : Port → State → Effect) (s : State) :
    withPort f b s = f p s := by
  unfold withPort
  rw [bodyPort_eq h]

/-! ### SET_PORT -/

/-- A field written back before the bytes that follow it. -/
theorem be_field_append (b : List Byte) (off n m : Nat) (h : off + n ≤ b.length) :
    be n (fieldAt b off n) ++ (b.drop (off + n)).take m = (b.drop off).take (n + m) := by
  rw [be_fieldAt b off n h, List.take_add, List.drop_drop]

theorem be_field_drop (b : List Byte) (off n : Nat) (h : off + n ≤ b.length) :
    be n (fieldAt b off n) ++ b.drop (off + n) = b.drop off := by
  rw [be_fieldAt b off n h, ← List.drop_drop, List.take_append_drop]

theorem readPortConfig_of_failed {b : List Byte} {x : Byte × Bool} (h : (portChecks b).find? (·.2) = some x) :
    readPortConfig b = .error x.1.toNat := by rw [readPortConfig_eq, firstFailed_of_some _ h]

theorem readPortConfig_of_passed {b : List Byte} (h : (portChecks b).find? (·.2) = none) :
    readPortConfig b = .ok (PortConfig.ofBody b) := by rw [readPortConfig_eq, firstFailed_of_none _ h]

section
variable {b : List Byte} {p : Port} {s : State}

theorem setPortOn_of_armed (h : (s.prcAt p).state ≠ .disarmed) : setPortOn b p s = refuse .state [] s := if_pos h

theorem setPortOn_of_failed {x : Byte × Bool} (h : (s.prcAt p).state = .disarmed)
    (hx : (portChecks b).find? (·.2) = some x) : setPortOn b p s = refuse .range [x.1] s := by
  unfold setPortOn
  rw [if_neg (not_not.mpr h), readPortConfig_of_failed hx]
  dsimp only
  rw [be_one_toNat]

theorem setPortOn_of_passed (h : (s.prcAt p).state = .disarmed) (hx : (portChecks b).find? (·.2) = none) :
    setPortOn b p s = (s.modPrc p fun q => { q with config := PortConfig.ofBody b },
      reply .ok (PortConfig.ofBody b).bytes) := by
  unfold setPortOn
  rw [if_neg (not_not.mpr h), readPortConfig_of_passed hx]

end

/-- The ranges of Table 6-1, of a body that passes the checks. -/
theorem portChecks_none {b : List Byte} (h : (portChecks b).find? (·.2) = none) :
    fieldAt b 1 1 ≤ 15 ∧ fieldAt b 2 1 ≤ 3 ∧ fieldAt b 18 1 ≤ 1 := by
  simp only [portChecks, List.find?_eq_none, List.forall_mem_cons, Bool.or_eq_true, beq_iff_eq, decide_eq_true_eq,
    List.not_mem_nil, false_imp_iff, implies_true, and_true] at h
  omega

/-- The configuration stored is answered with the bytes it came in, but for the stale setting (R85). -/
theorem PortConfig.ofBody_bytes {b : List Byte} (hb : b.length = 19) (h : (portChecks b).find? (·.2) = none) :
    (PortConfig.ofBody b).bytes = (b.drop 1).take 7 ++ be 2 (PortConfig.ofBody b).ts ++ b.drop 10 := by
  obtain ⟨hprogram, hset, hstall⟩ := portChecks_none h
  have hcode : (PortConfig.ofBody b).stall.code = fieldAt b 18 1 := by
    unfold PortConfig.ofBody
    rcases Nat.le_one_iff_eq_zero_or_eq_one.mp hstall with h0 | h1
    · simp [h0, StallAction.code]
    · simp [h1, StallAction.code]
  have hhead : be 1 (fieldAt b 1 1) ++ (be 1 (fieldAt b 2 1) ++ (be 1 (fieldAt b 3 1) ++ (be 1 (fieldAt b 4 1) ++
      (be 2 (fieldAt b 5 2) ++ be 1 (fieldAt b 7 1))))) = (b.drop 1).take 7 := by
    rw [be_fieldAt b 7 1 (by omega), be_field_append b 5 2 1 (by omega), be_field_append b 4 1 3 (by omega),
      be_field_append b 3 1 4 (by omega), be_field_append b 2 1 5 (by omega), be_field_append b 1 1 6 (by omega)]
  have htail : be 4 (fieldAt b 10 4) ++ (be 4 (fieldAt b 14 4) ++ be 1 (fieldAt b 18 1)) = b.drop 10 := by
    have hend : b.drop 19 = [] := List.drop_eq_nil_of_le hb.le
    rw [← List.append_nil (be 1 (fieldAt b 18 1)), ← hend, be_field_drop b 18 1 (by omega), be_field_drop b 14 4 (by omega),
      be_field_drop b 10 4 (by omega)]
  have hfin : (Fin.ofNat 16 (fieldAt b 1 1)).val = fieldAt b 1 1 ∧ (Fin.ofNat 4 (fieldAt b 2 1)).val = fieldAt b 2 1 :=
    ⟨Nat.mod_eq_of_lt (by omega), Nat.mod_eq_of_lt (by omega)⟩
  unfold PortConfig.bytes
  rw [hcode, ← hhead, ← htail]
  simp only [PortConfig.ofBody, hfin, List.append_assoc]

/-! ### GET_PORT -/

theorem standbyBytes_eq (n : Nat) (o : Option ProgNo) : standbyBytes n o =
    be 1 (if o = none then 0 else 1) ++ [match o with | some q => BitVec.ofNat 8 q.val | none => Config.absentStandbyProgram n] := by
  cases o <;> simp [standbyBytes, be_one]

/-- The fields of GET_PORT, each with its number of bytes (Table 13-8). -/
def State.portFields (s : State) (p : Port) : List (Nat × Nat) :=
  let q := s.prcAt p
  let o := s.oevAt p
  let e := q.episode
  [(1, q.config.program.val), (1, q.config.levelSet.val), (1, q.config.lw), (1, q.config.ld), (2, q.config.td),
    (1, q.config.fanIn), (2, q.config.ts), (4, q.config.tdr), (4, q.config.tc),
    (1, if q.config.stall = .cooldown then 0 else 1), (1, q.state.code), (1, bit q.qualified), (2, s.fanIn p),
    (1, bit o.baseline), (1, o.level), (1, o.peak), (4, o.accepted), (4, o.stale), (4, o.clamps), (4, e.number),
    (1, if e.origin = .manual then 1 else 0), (1, e.program.val), (1, q.outcomeByte), (4, e.openTime.toNat),
    (1, e.stepIndex), (4, e.clock.read s.now), (4, (s.cruAt p).a), (4, (s.cruAt p).s), (1, s.admittedCount p),
    (1, s.overdraftCount p), (2, (s.aduAt p).waitQ.length), (4, s.portRate p),
    (1, if q.standby = none then 0 else 1)]

/-- The last byte of GET_PORT (Table 13-8). -/
def State.standbyByte (s : State) (p : Port) : Byte :=
  match (s.prcAt p).standby with
  | some q => BitVec.ofNat 8 q.val
  | none => Config.absentStandbyProgram s.free

theorem StallAction.code_eq (a : StallAction) : a.code = if a = .cooldown then 0 else 1 := by cases a <;> rfl

theorem Origin.code_eq (o : Origin) : o.code = if o = .manual then 1 else 0 := by cases o <;> rfl

theorem portRecord_eq (s : State) (p : Port) : s.portRecord p = layout (s.portFields p) ++ [s.standbyByte p] := by
  unfold State.portRecord PortConfig.bytes
  dsimp only
  rw [standbyBytes_eq, StallAction.code_eq, Origin.code_eq]
  simp only [State.portFields, State.standbyByte, layout, List.flatMap_cons, List.flatMap_nil, List.append_assoc,
    List.nil_append]

theorem portFields_length (s : State) (p : Port) : laidLength (s.portFields p) = 70 := by
  simp [laidLength, State.portFields]

theorem laid_portRecord (s : State) (p : Port) : Laid (s.portRecord p) (placedFrom 0 (s.portFields p)) :=
  laid_of_layout (portRecord_eq s p) rfl

/-- Outside RELIEF and PAUSED both collections are empty (R123). -/
theorem State.booksOk.empty_outside {s : State} (h : s.booksOk) {p : Port} (h1 : (s.prcAt p).state ≠ .relief)
    (h2 : (s.prcAt p).state ≠ .paused) : s.aduAt p = ⟨[], []⟩ := by
  have hno (i : Slot) (e : Entry) (he : s.rtb.entry? i = some e) (hp : e.port = p) :
      e.state ≠ .waiting ∧ e.state ≠ .admitted := by
    have hocc := h.occurs he
    rw [hp] at hocc
    revert hocc h1 h2
    cases e.state <;> cases (s.prcAt p).state <;> simp [EntryState.occursIn]
  have hwait : (s.aduAt p).waitQ = [] := List.eq_nil_iff_forall_not_mem.mpr fun i hi => by
    obtain ⟨e, he, hp, hst⟩ := ((h.waiting p).2 i).mp hi
    exact (hno i e he hp).1 hst
  have hadm : (s.aduAt p).admitted = [] := List.eq_nil_iff_forall_not_mem.mpr fun i hi => by
    obtain ⟨e, he, hp, hst⟩ := ((h.admitted p).2 i).mp hi
    exact (hno i e he hp).2 hst
  exact (congrArg₂ AduPort.mk hwait hadm :)

end Sys2Proof.Machine

namespace Sys2Proof.Proofs

open Sys2Proof Sys2Proof.Machine

/-- Settles O51. -/
theorem setPortChecksAndStores : Obligations.SetPortChecksAndStores := by
  intro s p tag b hlane ht hb hport
  have heffect (u : State) : effectOf (.setPort tag b) u = setPortOn b p u :=
    (congrFun (checked_of_length (n := 19) rfl hb setPort) u).trans (withPort_eq hport _ u)
  refine ⟨fun hst => ?_, fun x hst hbad => ?_, fun hst hgood => ?_⟩
  · exact exec_unchanged (c := .setPort tag b) rfl rfl ht hlane ((heffect _).trans (setPortOn_of_armed hst))
  · exact exec_unchanged (c := .setPort tag b) rfl rfl ht hlane ((heffect _).trans (setPortOn_of_failed hst hbad))
  · obtain ⟨hprogram, hset, _⟩ := portChecks_none hgood
    refine ⟨PortConfig.ofBody b, Nat.mod_eq_of_lt (by omega), Nat.mod_eq_of_lt (by omega), rfl, rfl, rfl, rfl, ?_, rfl, rfl,
      rfl, ?_⟩
    · show max 1 (fieldAt b 8 2) = _
      split <;> omega
    · rw [← PortConfig.ofBody_bytes hb hgood]
      exact exec_answers (c := .setPort tag b) (t := s.modPrc p fun q => { q with config := PortConfig.ofBody b }) rfl rfl
        ht hlane ((heffect _).trans (setPortOn_of_passed hst hgood))

/-- Settles O52, by the layout of Table 13-8. -/
theorem getPortReports : Obligations.GetPortReports := by
  intro s p tag pb hlane hport ht
  dsimp only
  have hfield : fieldAt [pb] 0 1 = p.val := (fieldAt_cons_zero pb []).trans hport
  refine ⟨?_, ?_, laid_portRecord s p, fun n hn => ?_, fun hbooks h1 h2 => ?_⟩
  · have heffect : effectOf (.getPort tag [pb]) { s with clc := s.clc.taken } =
        getPortOn p { s with clc := s.clc.taken } := withPort_eq hfield getPortOn _
    have hfree : s.free + bit (s.prcAt p).standby.isNone = if (s.prcAt p).standby = none then s.free + 1 else s.free := by
      cases (s.prcAt p).standby <;> rfl
    rw [← hfree]
    exact exec_answers (c := .getPort tag [pb]) (t := { s with free := s.free + bit (s.prcAt p).standby.isNone }) rfl rfl
      ht hlane heffect
  · rw [portRecord_eq, List.length_append, layout_length, portFields_length, List.length_singleton]
  · have hlen := portFields_length s p
    have hbyte : s.standbyByte p = BitVec.ofNat 8 n.val := by unfold State.standbyByte; rw [hn]
    rw [portRecord_eq, fieldAt_append_right _ _ _ _ (by rw [layout_length, hlen]), layout_length, hlen, hbyte]
    show fieldAt [BitVec.ofNat 8 n.val] 0 1 = n.val
    rw [fieldAt_cons_zero, BitVec.toNat_ofNat]
    have := n.isLt
    omega
  · have hempty := hbooks.empty_outside h1 h2
    have hk : s.admittedCount p = 0 := by unfold State.admittedCount; rw [hempty]; rfl
    have hmarks : s.overdraftCount p = 0 := by unfold State.overdraftCount; rw [hempty]; rfl
    have hwait : (s.aduAt p).waitQ.length = 0 := by rw [hempty]; rfl
    have hrate : s.portRate p = 0 := if_pos hk
    have hfields : ((placedFrom 0 (s.portFields p)).drop 28).take 4 =
        [(61, 1, s.admittedCount p), (62, 1, s.overdraftCount p), (63, 2, (s.aduAt p).waitQ.length), (65, 4, s.portRate p)] :=
      rfl
    rw [hk, hmarks, hwait, hrate] at hfields
    rw [← hfields]
    exact fun x hx => laid_portRecord s p x (List.mem_of_mem_drop (List.mem_of_mem_take hx))

/-- Settles O43: dividing by k and Pt + 1 in turn loses at most k - 1. -/
theorem gatesShareTheAggregate : Obligations.GatesShareTheAggregate := by
  intro res pt k _ hk
  have hpos : 1 ≤ (pt + 1) * k := Nat.mul_pos (by omega) hk
  refine ⟨rfl, fun hsmall => ?_, fun hlarge => ?_⟩
  · have hshare : reportedRate res (gateDivisor pt k) = reportedRate res pt / k := by
      unfold reportedRate gateDivisor
      rw [Nat.div_div_eq_div_mul, show min 4095 ((pt + 1) * k - 1) + 1 = (pt + 1) * k by omega]
    rw [hshare]
    have hmod := Nat.div_add_mod (reportedRate res pt) k
    have hlt := Nat.mod_lt (reportedRate res pt) hk
    omega
  · have hclamp : gateDivisor pt k = 4095 := by unfold gateDivisor; omega
    rw [hclamp]
    cases res <;> rfl

end Sys2Proof.Proofs
end

section
/-! SUPPORT. SET_WINDOW, GET_WINDOW, SET_DEFAULT_CLASS, and what a window covers (R60, R61, R64 to R68). -/

namespace Sys2Proof.Machine

/-! ### Windows -/

theorem Window.covers_iff (w : Window) (n : BitVec 16) :
    w.covers n = true ↔ n.toNat / 2 ^ w.size.val = w.base.toNat / 2 ^ w.size.val := by
  unfold Window.covers
  rw [beq_iff_eq, ← BitVec.toNat_inj, BitVec.toNat_ushiftRight, BitVec.toNat_ushiftRight, Nat.shiftRight_eq_div_pow,
    Nat.shiftRight_eq_div_pow]

theorem Window.covers_aligned {w : Window} (h : 2 ^ w.size.val ∣ w.base.toNat) (n : BitVec 16) :
    w.covers n = true ↔ w.base.toNat ≤ n.toNat ∧ n.toNat ≤ w.base.toNat + 2 ^ w.size.val - 1 := by
  have hpos : 0 < 2 ^ w.size.val := Nat.two_pow_pos _
  obtain ⟨m, hm⟩ := h
  rw [w.covers_iff, hm, Nat.mul_div_cancel_left m hpos, Nat.div_eq_iff hpos, Nat.mul_comm m]

/-- Two windows overlap when they share a service number (R65). -/
theorem Window.overlaps_iff (a b : Window) :
    a.overlaps b = true ↔ ∃ n, b.covers n = true ∧ a.covers n = true := by
  constructor
  · intro h
    unfold Window.overlaps at h
    unfold Window.covers
    rw [beq_iff_eq] at h
    rcases Nat.le_total a.size.val b.size.val with hle | hle
    · rw [max_eq_right hle] at h
      exact ⟨a.base, by rw [beq_iff_eq]; exact h, by rw [beq_iff_eq]⟩
    · rw [max_eq_left hle] at h
      exact ⟨b.base, by rw [beq_iff_eq], by rw [beq_iff_eq]; exact h.symm⟩
  · rintro ⟨n, hb, ha⟩
    exact overlaps_of_covers ha hb

theorem Window.aligned_iff (w : Window) : w.aligned = true ↔ 2 ^ w.size.val ∣ w.base.toNat := by
  unfold Window.aligned
  rw [beq_iff_eq, Nat.dvd_iff_mod_eq_zero]

section
variable {s : State} {b : List Byte} {i : Fin 8} {w : Window}

theorem readWindow_of_failed {x : Byte × Bool} (h : (windowChecks b).find? (·.2) = some x) :
    readWindow b = .error x.1.toNat := by rw [readWindow_eq, firstFailed_of_some _ h]

theorem readWindow_of_passed (h : (windowChecks b).find? (·.2) = none) :
    readWindow b = .ok (Fin.ofNat 8 (fieldAt b 0 1), Window.ofBody b) := by rw [readWindow_eq, firstFailed_of_none _ h]

/-- The ranges of R64, of a body that passes the checks. -/
theorem windowChecks_none (h : (windowChecks b).find? (·.2) = none) : fieldAt b 0 1 ≤ 7 ∧ fieldAt b 4 1 ≤ 15 ∧
    fieldAt b 7 1 ≤ 3 ∧ fieldAt b 1 1 ≤ 1 ∧ fieldAt b 5 1 ≤ 1 ∧ fieldAt b 6 1 ≤ 1 := by
  simp only [windowChecks, List.find?_eq_none, List.forall_mem_cons, decide_eq_true_eq, List.not_mem_nil, false_imp_iff,
    implies_true, and_true] at h
  omega

theorem setWindow_of_failed {x : Byte × Bool} (h : (windowChecks b).find? (·.2) = some x) :
    setWindow b s = refuse .range [x.1] s := by
  unfold setWindow
  rw [readWindow_of_failed h]
  dsimp only
  rw [be_one_toNat]

theorem setWindow_of_misaligned (h : readWindow b = .ok (i, w)) (ha : ¬2 ^ w.size.val ∣ w.base.toNat) :
    setWindow b s = refuse .align [] s := by
  have hno : w.aligned = false := by rw [← Bool.not_eq_true, w.aligned_iff]; exact ha
  unfold setWindow
  rw [h]
  dsimp only
  rw [hno]
  rfl

theorem setWindow_of_overlap {j : Fin 8} (h : readWindow b = .ok (i, w)) (ha : 2 ^ w.size.val ∣ w.base.toNat)
    (he : w.enable = true) (hj : s.cmp.overlapped i w = some j) :
    setWindow b s = refuse .overlap [BitVec.ofNat 8 j.val] s := by
  unfold setWindow
  rw [h]
  dsimp only
  rw [w.aligned_iff.mpr ha, he, if_neg (by decide), if_pos rfl, hj]
  dsimp only
  rw [be_one]

theorem setWindow_of_clear (h : readWindow b = .ok (i, w)) (ha : 2 ^ w.size.val ∣ w.base.toNat)
    (hclear : w.enable = true → s.cmp.overlapped i w = none) :
    setWindow b s = ({ s with cmp := { s.cmp with windows := s.cmp.windows.set i.val w i.isLt } },
      reply .ok (be 1 i.val ++ w.bytes)) := by
  have hnone : (if w.enable = true then s.cmp.overlapped i w else none) = none := by
    split
    · next he => exact hclear he
    · rfl
  unfold setWindow
  rw [h]
  dsimp only
  rw [w.aligned_iff.mpr ha, if_neg (by decide), hnone, modAt_eq_set]

/-- The lowest window that a window would overlap (R65). -/
theorem overlapped_iff (s : State) (i : Fin 8) (w : Window) (j : Fin 8) :
    (j != i && s.cmp.windows[j].enable && s.cmp.windows[j].rank == w.rank && s.cmp.windows[j].overlaps w) = true ↔
      j ≠ i ∧ s.cmp.windows[j].enable = true ∧ s.cmp.windows[j].rank = w.rank ∧
        ∃ n, w.covers n = true ∧ s.cmp.windows[j].covers n = true := by
  rw [← Window.overlaps_iff]
  simp [and_assoc]

theorem bit_of_field {n : Nat} (h : n ≤ 1) : bit (n == 1) = n := by
  interval_cases n <;> rfl

/-- The window that a body lays out, known by its fields. -/
theorem Window.eq_ofBody (h : (windowChecks b).find? (·.2) = none) (henable : w.enable = (fieldAt b 1 1 == 1))
    (hbase : w.base.toNat = fieldAt b 2 2) (hsize : w.size.val = fieldAt b 4 1)
    (hrank : w.rank = if fieldAt b 5 1 = 0 then .pinned else .broad) (heligible : w.params.eligible = (fieldAt b 6 1 == 1))
    (hband : w.params.band.val = fieldAt b 7 1)
    (hcap : w.params.cap = min 1048576 (max 1024 (fieldAt b 8 4 / 64 * 64))) (hhits : w.hits = 0) :
    w = Window.ofBody b := by
  obtain ⟨_, hsizeLe, hbandLe, _⟩ := windowChecks_none h
  obtain ⟨enable, base, size, rank, ⟨eligible, band, cap⟩, hits⟩ := w
  have hbase' : base = BitVec.ofNat 16 (fieldAt b 2 2) := by
    rw [← hbase]
    exact (BitVec.ofNat_toNat 16 base).symm
  have hsize' : size = Fin.ofNat 16 (fieldAt b 4 1) := Fin.ext (hsize.trans (Nat.mod_eq_of_lt (by omega)).symm)
  have hband' : band = Fin.ofNat 4 (fieldAt b 7 1) := Fin.ext (hband.trans (Nat.mod_eq_of_lt (by omega)).symm)
  unfold Window.ofBody
  rw [hbase', hsize', hband', ← heligible, ← hrank, ← henable, ← hhits]
  exact congrArg (fun n => Window.mk _ _ _ _ ⟨_, _, n⟩ _) hcap

/-- The window stored is answered with the bytes it came in, but for its cap (R66). -/
theorem Window.ofBody_bytes (hb : b.length = 12) (h : (windowChecks b).find? (·.2) = none) :
    be 1 (Fin.ofNat 8 (fieldAt b 0 1)).val ++ (Window.ofBody b).bytes =
      b.take 8 ++ be 4 (Window.ofBody b).params.cap := by
  obtain ⟨hindex, hsize, hband, henable, hrank, heligible⟩ := windowChecks_none h
  have hcode : (Window.ofBody b).rank.code = fieldAt b 5 1 := by
    unfold Window.ofBody
    rcases Nat.le_one_iff_eq_zero_or_eq_one.mp hrank with h0 | h1
    · simp [h0, Rank.code]
    · simp [h1, Rank.code]
  have hbase : (BitVec.ofNat 16 (fieldAt b 2 2)).toNat = fieldAt b 2 2 := by
    rw [BitVec.toNat_ofNat]
    exact Nat.mod_eq_of_lt (fieldAt_lt b 2 2)
  have hhead : be 1 (fieldAt b 0 1) ++ (be 1 (fieldAt b 1 1) ++ (be 2 (fieldAt b 2 2) ++ (be 1 (fieldAt b 4 1) ++
      (be 1 (fieldAt b 5 1) ++ (be 1 (fieldAt b 6 1) ++ be 1 (fieldAt b 7 1)))))) = b.take 8 := by
    rw [be_fieldAt b 7 1 (by omega), be_field_append b 6 1 1 (by omega), be_field_append b 5 1 2 (by omega),
      be_field_append b 4 1 3 (by omega), be_field_append b 2 2 4 (by omega), be_field_append b 1 1 6 (by omega),
      be_field_append b 0 1 7 (by omega), List.drop_zero]
  have hfin : (Fin.ofNat 8 (fieldAt b 0 1)).val = fieldAt b 0 1 ∧ (Fin.ofNat 16 (fieldAt b 4 1)).val = fieldAt b 4 1 ∧
      (Fin.ofNat 4 (fieldAt b 7 1)).val = fieldAt b 7 1 :=
    ⟨Nat.mod_eq_of_lt (by omega), Nat.mod_eq_of_lt (by omega), Nat.mod_eq_of_lt (by omega)⟩
  unfold Window.bytes ClassParams.bytes
  rw [hcode, ← hhead]
  simp only [Window.ofBody, hfin, hbase, bit_of_field henable, bit_of_field heligible, List.append_assoc]

/-! ### The default class -/

theorem setDefaultClass_of_eligible (h0 : 1 < fieldAt b 0 1) : setDefaultClass b s = refuse .range [0] s := by
  unfold setDefaultClass readDefaultClass
  rw [if_pos h0]
  rfl

theorem setDefaultClass_of_band (h0 : fieldAt b 0 1 ≤ 1) (h1 : 3 < fieldAt b 1 1) :
    setDefaultClass b s = refuse .range [1] s := by
  unfold setDefaultClass readDefaultClass
  rw [if_neg (by omega), if_pos h1]
  rfl

theorem setDefaultClass_of_passed {c : ClassParams} (h : readDefaultClass b = .ok c) :
    setDefaultClass b s = ({ s with cmp := { s.cmp with dflt := c, dfltHits := 0 } }, reply .ok c.bytes) := by
  unfold setDefaultClass
  rw [h]

/-- The default class that a body lays out, and the bytes that answer it. -/
theorem readDefaultClass_of_fields {c : ClassParams} (hb : b.length = 6) (h0 : fieldAt b 0 1 ≤ 1) (h1 : fieldAt b 1 1 ≤ 3)
    (heligible : c.eligible = (fieldAt b 0 1 == 1)) (hband : c.band.val = fieldAt b 1 1)
    (hcap : c.cap = min 1048576 (max 1024 (fieldAt b 2 4 / 64 * 64))) :
    readDefaultClass b = .ok c ∧ c.bytes = b.take 2 ++ be 4 c.cap := by
  obtain ⟨eligible, band, cap⟩ := c
  dsimp only at heligible hband hcap
  have hband' : Fin.ofNat 4 (fieldAt b 1 1) = band := Fin.ext ((Nat.mod_eq_of_lt (by omega)).trans hband.symm)
  constructor
  · unfold readDefaultClass storedCap
    rw [if_neg (by omega), if_neg (by omega), hband', ← heligible, ← hcap]
  · have hhead : be 1 (fieldAt b 0 1) ++ be 1 (fieldAt b 1 1) = b.take 2 := by
      rw [be_fieldAt b 1 1 (by omega), be_field_append b 0 1 1 (by omega), List.drop_zero]
    unfold ClassParams.bytes
    dsimp only
    rw [heligible, bit_of_field h0, hband, hhead]

end

end Sys2Proof.Machine

namespace Sys2Proof.Proofs

open Sys2Proof Sys2Proof.Machine

/-- Settles O56. -/
theorem windowsAreWrittenAndRead : Obligations.WindowsAreWrittenAndRead := by
  refine ⟨fun w n h => Window.covers_aligned h n, fun s tag hlane => ⟨fun b hb ht => ?_, fun ib ht => ?_, fun b hb ht => ?_⟩⟩
  · have heffect (u : State) : effectOf (.setWindow tag b) u = setWindow b u :=
      congrFun (checked_of_length (n := 12) rfl hb setWindow) u
    refine ⟨fun x hbad => ?_, fun i w hgood hi henable hbase hsize hrank heligible hband hcap hhits => ?_⟩
    · exact exec_unchanged (c := .setWindow tag b) rfl rfl ht hlane ((heffect _).trans (setWindow_of_failed hbad))
    · obtain ⟨hindex, _⟩ := windowChecks_none hgood
      have hw : w = Window.ofBody b := Window.eq_ofBody hgood henable hbase hsize hrank heligible hband hcap hhits
      have hidx : Fin.ofNat 8 (fieldAt b 0 1) = i := Fin.ext ((Nat.mod_eq_of_lt (by omega)).trans hi.symm)
      have hread : readWindow b = .ok (i, w) := by rw [readWindow_of_passed hgood, hidx, hw]
      rw [← hbase, ← hsize]
      refine ⟨fun ha => ?_, fun ha clash hclash => ⟨fun j hj hlow => ?_, fun hnone => ?_⟩⟩
      · exact exec_unchanged (c := .setWindow tag b) rfl rfl ht hlane ((heffect _).trans (setWindow_of_misaligned hread ha))
      · have hiff (k : Fin 8) : clash k ↔ w.enable = true ∧ (k != i && s.cmp.windows[k].enable &&
            s.cmp.windows[k].rank == w.rank && s.cmp.windows[k].overlaps w) = true := by
          rw [hclash, overlapped_iff]
          tauto
        have hj' := (hiff j).mp hj
        have hfirst : s.cmp.overlapped i w = some j :=
          find?_finRange_eq_some.mpr ⟨hj'.2, fun k hk hP => absurd (hlow k ((hiff k).mpr ⟨hj'.1, hP⟩)) (not_le.mpr hk)⟩
        exact exec_unchanged (c := .setWindow tag b) rfl rfl ht hlane
          ((heffect _).trans (setWindow_of_overlap hread ha hj'.1 hfirst))
      · have hclear (he : w.enable = true) : s.cmp.overlapped i w = none :=
          List.find?_eq_none.mpr fun k _ hk => hnone k ((hclash k).mpr (by
            rw [overlapped_iff] at hk
            tauto))
        have hbytes : be 1 i.val ++ w.bytes = b.take 8 ++ be 4 w.params.cap := by
          rw [hw, ← hidx]
          exact Window.ofBody_bytes hb hgood
        rw [← hbytes]
        exact exec_answers (c := .setWindow tag b)
          (t := { s with cmp := { s.cmp with windows := s.cmp.windows.set i.val w i.isLt } }) rfl rfl ht hlane
          ((heffect _).trans (setWindow_of_clear hread ha hclear))
  · have hfield : fieldAt [ib] 0 1 = ib.toNat := fieldAt_cons_zero ib []
    have heffect (u : State) : effectOf (.getWindow tag [ib]) u = getWindow [ib] u := rfl
    refine ⟨fun i hi => ?_, fun h8 => ?_, fun h8 => ?_⟩
    · refine exec_unchanged (c := .getWindow tag [ib]) rfl rfl ht hlane ?_
      have hk : (⟨fieldAt [ib] 0 1, by omega⟩ : Fin 8) = i := Fin.ext (hfield.trans hi)
      rw [heffect, getWindow, dif_pos (by omega)]
      simp only [hk]
      rfl
    · subst h8
      exact exec_unchanged (c := .getWindow tag [8]) rfl rfl ht hlane rfl
    · refine exec_unchanged (c := .getWindow tag [ib]) rfl rfl ht hlane ?_
      rw [heffect, getWindow, dif_neg (by omega), if_neg (by omega)]
      rfl
  · have heffect (u : State) : effectOf (.setDefaultClass tag b) u = setDefaultClass b u :=
      congrFun (checked_of_length (n := 6) rfl hb setDefaultClass) u
    refine ⟨fun h0 => ?_, fun h0 h1 => ?_, fun c h0 h1 heligible hband hcap => ?_⟩
    · exact exec_unchanged (c := .setDefaultClass tag b) rfl rfl ht hlane ((heffect _).trans (setDefaultClass_of_eligible h0))
    · exact exec_unchanged (c := .setDefaultClass tag b) rfl rfl ht hlane ((heffect _).trans (setDefaultClass_of_band h0 h1))
    · obtain ⟨hread, hbytes⟩ := readDefaultClass_of_fields hb h0 h1 heligible hband hcap
      rw [← hbytes]
      exact exec_answers (c := .setDefaultClass tag b) (t := { s with cmp := { s.cmp with dflt := c, dfltHits := 0 } })
        rfl rfl ht hlane ((heffect _).trans (setDefaultClass_of_passed hread))

end Sys2Proof.Proofs
end

section
/-! SUPPORT. WRITE_PROGRAM and READ_PROGRAM (R73, R76 to R81). -/

namespace Sys2Proof.Machine

/-- A frame's records, cut again (Table 13-1). -/
theorem cutRecords_flatten {recs : List (List Byte)} (h : ∀ r ∈ recs, r.length = 16) (rest : List Byte) :
    cutRecords recs.length (recs.flatten ++ rest) = recs := by
  induction recs with
  | nil => rfl
  | cons r recs ih =>
    rw [List.forall_mem_cons] at h
    rw [List.length_cons, cutRecords, List.flatten_cons, List.append_assoc, List.take_left' h.1, List.drop_left' h.1, ih h.2]

theorem flatten_length_of_forall {recs : List (List Byte)} {n : Nat} (h : ∀ r ∈ recs, r.length = n) :
    recs.flatten.length = n * recs.length := by
  induction recs with
  | nil => rfl
  | cons r recs ih =>
    rw [List.forall_mem_cons] at h
    rw [List.flatten_cons, List.length_append, ih h.2, h.1, List.length_cons, Nat.mul_succ, Nat.add_comm]

/-! ### The body of WRITE_PROGRAM -/

section
variable {qb nb : Byte} {recs : List (List Byte)}

theorem programBody_fields : fieldAt (qb :: nb :: recs.flatten) 0 1 = qb.toNat ∧
    fieldAt (qb :: nb :: recs.flatten) 1 1 = nb.toNat :=
  ⟨fieldAt_cons_zero .., (fieldAt_cons_succ ..).trans (fieldAt_cons_zero ..)⟩

theorem readProgramBody_of_program (h : 15 < qb.toNat) : readProgramBody (qb :: nb :: recs.flatten) = .error (255, 0) := by
  obtain ⟨hq, _⟩ := programBody_fields (qb := qb) (nb := nb) (recs := recs)
  unfold readProgramBody
  rw [hq, if_pos h]

variable (hn : nb.toNat = recs.length)
include hn

theorem readProgramBody_of_count (h : qb.toNat ≤ 15) (hlen : 32 < recs.length) :
    readProgramBody (qb :: nb :: recs.flatten) = .error (255, 1) := by
  obtain ⟨hq, hc⟩ := programBody_fields (qb := qb) (nb := nb) (recs := recs)
  unfold readProgramBody
  rw [hq, if_neg (by omega), hc, if_pos (by omega)]

variable (hrecs : ∀ r ∈ recs, r.length = 16) {q : ProgNo} (hq : qb.toNat = q.val) (hlen : recs.length ≤ 32)
include hrecs hq hlen

theorem readProgramBody_eq :
    readProgramBody (qb :: nb :: recs.flatten) = (readSteps 0 recs).map fun sts => (q, sts) := by
  obtain ⟨hq', hc⟩ := programBody_fields (qb := qb) (nb := nb) (recs := recs)
  have hcut : cutRecords (fieldAt (qb :: nb :: recs.flatten) 1 1) ((qb :: nb :: recs.flatten).drop 2) = recs := by
    rw [hc, hn]
    have h := cutRecords_flatten hrecs []
    rwa [List.append_nil] at h
  have hfin : Fin.ofNat 16 (fieldAt (qb :: nb :: recs.flatten) 0 1) = q :=
    Fin.ext ((congrArg (· % 16) (hq'.trans hq)).trans (Nat.mod_eq_of_lt q.isLt))
  unfold readProgramBody
  rw [if_neg (by omega), if_neg (by omega), hcut, hfin]
  cases readSteps 0 recs <;> rfl

theorem readProgramBody_of_failed {j : Nat} (hj : j < recs.length) {code : Byte} (hc : failedItem recs[j] = some code)
    (hlow : ∀ r ∈ recs.take j, failedItem r = none) :
    readProgramBody (qb :: nb :: recs.flatten) = .error (j, code.toNat) := by
  rw [readProgramBody_eq hn hrecs hq hlen, readSteps_error hj hc hlow, Nat.zero_add]
  rfl

theorem readProgramBody_of_passed (h : ∀ r ∈ recs, failedItem r = none) :
    readProgramBody (qb :: nb :: recs.flatten) = .ok (q, recs.map Step.ofRecord) := by
  rw [readProgramBody_eq hn hrecs hq hlen, readSteps_ok h]
  rfl

end

/-! ### Programs in use (R77) -/

section
variable {s : State} {q : ProgNo} {n : Nat}

/-- The cases that put a program in use at a port (R77). -/
def State.uses (s : State) (q : ProgNo) (n : Nat) (p : Port) (c : Nat) : Prop :=
  (c = 0 ∧ ((s.prcAt p).state = .relief ∨ (s.prcAt p).state = .paused) ∧ (s.prcAt p).episode.program = q) ∨
  (c = 1 ∧ (s.prcAt p).standby = some q) ∨
  (c = 2 ∧ n = 0 ∧ (s.prcAt p).state ≠ .disarmed ∧ (s.prcAt p).config.program = q)

theorem useCase_eq_some {p : Port} {c : Nat} (h : s.uses q n p c) (hlow : ∀ c', c' < c → ¬s.uses q n p c') :
    (s.prcAt p).useCase q n = some c := by
  unfold PrcPort.useCase
  rcases h with ⟨rfl, h⟩ | ⟨rfl, h⟩ | ⟨rfl, h⟩
  · rw [if_pos h]
  · rw [if_neg fun h0 => hlow 0 (by omega) (.inl ⟨rfl, h0⟩), if_pos h]
  · rw [if_neg fun h0 => hlow 0 (by omega) (.inl ⟨rfl, h0⟩), if_neg fun h1 => hlow 1 (by omega) (.inr (.inl ⟨rfl, h1⟩)),
      if_pos h]

theorem useCase_eq_none {p : Port} (h : ∀ c, ¬s.uses q n p c) : (s.prcAt p).useCase q n = none := by
  unfold PrcPort.useCase
  rw [if_neg fun h0 => h 0 (.inl ⟨rfl, h0⟩), if_neg fun h1 => h 1 (.inr (.inl ⟨rfl, h1⟩)),
    if_neg fun h2 => h 2 (.inr (.inr ⟨rfl, h2⟩))]

theorem findSome?_finRange {α : Type} {m : Nat} {f : Fin m → Option α} {i : Fin m} {x : α} (hi : f i = some x)
    (hlow : ∀ j, j < i → f j = none) : (List.finRange m).findSome? f = some x := by
  have hlt : i.val < (List.finRange m).length := by simp
  rw [List.findSome?_eq_some_iff]
  refine ⟨(List.finRange m).take i.val, i, (List.finRange m).drop (i.val + 1), ?_, hi, fun j hj => hlow j ?_⟩
  · have hsplit := List.take_append_drop i.val (List.finRange m)
    rw [List.drop_eq_getElem_cons hlt, List.getElem_finRange] at hsplit
    exact hsplit.symm
  · obtain ⟨k, hk, rfl⟩ := List.getElem_of_mem hj
    rw [List.getElem_take, List.getElem_finRange]
    rw [List.length_take] at hk
    exact Fin.lt_def.mpr (by simpa using lt_of_lt_of_le hk (Nat.min_le_left ..))

theorem inUse_eq_some {p : Port} {c : Nat} (h : s.uses q n p c) (hcase : ∀ c', c' < c → ¬s.uses q n p c')
    (hlow : ∀ p' c', p' < p → ¬s.uses q n p' c') : s.inUse q n = some (p, c) := by
  unfold State.inUse
  refine findSome?_finRange (i := p) ?_ fun p' hp' => ?_
  · rw [useCase_eq_some h hcase]
    rfl
  · rw [useCase_eq_none fun c' => hlow p' c' hp']
    rfl

theorem inUse_eq_none (h : ∀ p c, ¬s.uses q n p c) : s.inUse q n = none := by
  unfold State.inUse
  refine List.findSome?_eq_none_iff.mpr fun p _ => ?_
  rw [useCase_eq_none (h p)]
  rfl

/-! ### WRITE_PROGRAM by case -/

variable {b : List Byte} {sts : List Step}

theorem writeProgram_of_failed {j c : Nat} (h : readProgramBody b = .error (j, c)) :
    writeProgram b s = refuse .range [BitVec.ofNat 8 j, BitVec.ofNat 8 c] s := by
  unfold writeProgram
  rw [h]
  dsimp only
  rw [be_one, be_one]
  rfl

theorem writeProgram_of_use {p : Port} {c : Nat} (h : readProgramBody b = .ok (q, sts))
    (hu : s.inUse q sts.length = some (p, c)) :
    writeProgram b s = refuse .inUse [BitVec.ofNat 8 p.val, BitVec.ofNat 8 c] s := by
  unfold writeProgram
  rw [h]
  dsimp only
  rw [hu]
  dsimp only
  rw [be_one, be_one]
  rfl

theorem writeProgram_of_full (h : readProgramBody b = .ok (q, sts)) (hu : s.inUse q sts.length = none)
    (hroom : 256 < s.pgs.used - (s.pgs.programs[q]).length + sts.length) :
    writeProgram b s = refuse .noRoom (be 2 (256 - (s.pgs.used - (s.pgs.programs[q]).length))) s := by
  unfold writeProgram
  rw [h]
  dsimp only
  rw [hu]
  dsimp only
  rw [if_pos hroom]

theorem writeProgram_of_room (h : readProgramBody b = .ok (q, sts)) (hu : s.inUse q sts.length = none)
    (hroom : s.pgs.used - (s.pgs.programs[q]).length + sts.length ≤ 256) :
    writeProgram b s = ({ s with pgs := ⟨s.pgs.programs.set q.val sts q.isLt⟩ },
      reply .ok (be 1 q.val ++ be 1 sts.length ++
        be 2 (256 - (s.pgs.used - (s.pgs.programs[q]).length + sts.length)))) := by
  unfold writeProgram
  rw [h]
  dsimp only
  rw [hu]
  dsimp only
  rw [if_neg (by omega), modAt_eq_set]

end

/-! ### READ_PROGRAM -/

/-- The fields of a step record, each with its number of bytes (Table 13-9). -/
def Step.fields (st : Step) : List (Nat × Nat) :=
  [(2, st.pt), (1, 16 * st.res.code + st.kind.code), (1, st.width), (1, st.fa), (1, st.fb), (1, st.lc), (1, st.lt),
    (4, st.budget), (4, st.guard)]

theorem Step.bytes_eq (st : Step) : st.bytes = layout st.fields := by
  simp only [Step.bytes, Step.fields, layout, List.flatMap_cons, List.flatMap_nil, List.append_assoc, List.append_nil]

theorem Step.bytes_length (st : Step) : st.bytes.length = 16 := by
  rw [Step.bytes_eq, layout_length]
  rfl

theorem Step.laid_bytes (st : Step) : Laid st.bytes (placedFrom 0 st.fields) :=
  laid_of_layout (rest := []) (by rw [List.append_nil, Step.bytes_eq]) rfl

/-- The record of a legal step is stored as that step (R73, R81). -/
theorem Step.ok.bytes_stored {st : Step} (h : st.ok) : StepStored st.bytes st := by
  obtain ⟨hpt, _, hwidth, _, hfa, _, hfb, _, hlc, hbudget, hlt, hguard, hlevel, _⟩ := h
  have hlaid := st.laid_bytes
  have hres : st.res.code ≤ 1 := by cases st.res <;> decide
  have hkind : st.kind.code ≤ 3 := by cases st.kind <;> decide
  have hcode : st.kind = .level ↔ st.kind.code = 1 := by cases st.kind <;> decide
  unfold Laid Step.fields placedFrom at hlaid
  simp only [placedFrom, List.forall_mem_cons, List.not_mem_nil, false_imp_iff, implies_true, and_true] at hlaid
  obtain ⟨l0, l2, l3, l4, l5, l6, l7, l8, l12⟩ := hlaid
  norm_num at l0 l2 l3 l4 l5 l6 l7 l8 l12
  have hk : fieldAt st.bytes 2 1 % 16 = st.kind.code := by omega
  refine ⟨by omega, by omega, hk.symm, by omega, by omega, by omega, by omega, ?_, by omega, by omega⟩
  rw [hk]
  split
  · omega
  · next hne => exact hlevel fun hl => hne (hcode.mp hl)

end Sys2Proof.Machine

namespace Sys2Proof.Proofs

open Sys2Proof Sys2Proof.Machine

/-- Settles O57. -/
theorem programsAreWrittenAndRead : Obligations.ProgramsAreWrittenAndRead := by
  refine fun s tag qb hlane => ⟨fun nb recs hn hrecs ht => ?_, fun ht => ?_⟩
  · have heffect (u : State) : effectOf (.writeProgram tag (qb :: nb :: recs.flatten)) u =
        writeProgram (qb :: nb :: recs.flatten) u := by
      refine congrFun (checked_of_length (n := 2 + 16 * fieldAt (qb :: nb :: recs.flatten) 1 1) rfl ?_ writeProgram) u
      rw [(programBody_fields).2, hn, List.length_cons, List.length_cons, flatten_length_of_forall hrecs]
      omega
    have hrefused {st : Status} {l : List Byte} (h : writeProgram (qb :: nb :: recs.flatten) { s with clc := s.clc.taken } =
        refuse st l { s with clc := s.clc.taken }) : exec (.writeProgram tag (qb :: nb :: recs.flatten)) s =
          .next { s with clc := s.clc.answered ⟨0xC0, tag, statusByte st :: l⟩ } :=
      exec_unchanged (c := .writeProgram tag (qb :: nb :: recs.flatten)) rfl rfl ht hlane ((heffect _).trans h)
    refine ⟨fun hq => hrefused (writeProgram_of_failed (readProgramBody_of_program hq)), fun q hq => ⟨fun hlen => ?_,
      fun hlen => ⟨fun j hj code hcode hlow => ?_, fun hpass => ?_⟩⟩⟩
    · exact hrefused (writeProgram_of_failed (readProgramBody_of_count hn (by omega) hlen))
    · have h := writeProgram_of_failed (s := { s with clc := s.clc.taken })
        (readProgramBody_of_failed hn hrecs hq hlen hj hcode hlow)
      rw [BitVec.ofNat_toNat] at h
      exact hrefused h
    · have hread := readProgramBody_of_passed hn hrecs hq hlen hpass
      have hlength : (recs.map Step.ofRecord).length = recs.length := List.length_map _
      have huses (p : Port) (c : Nat) : State.uses { s with clc := s.clc.taken } q (recs.map Step.ofRecord).length p c ↔
          (c = 0 ∧ ((s.prcAt p).state = .relief ∨ (s.prcAt p).state = .paused) ∧ (s.prcAt p).episode.program = q) ∨
          (c = 1 ∧ (s.prcAt p).standby = some q) ∨
          (c = 2 ∧ recs = [] ∧ (s.prcAt p).state ≠ .disarmed ∧ (s.prcAt p).config.program = q) := by
        rw [hlength]
        unfold State.uses
        rw [List.length_eq_zero_iff]
        rfl
      simp only [← huses]
      refine ⟨fun p c hu hcase hlow => hrefused (writeProgram_of_use hread (inUse_eq_some hu hcase hlow)), fun hno =>
        ⟨fun hroom => ?_, fun hroom => ⟨recs.map Step.ofRecord, ?_, fun st hst => ?_, ?_⟩⟩⟩
      · rw [← hlength] at hroom
        exact hrefused (writeProgram_of_full hread (inUse_eq_none hno) hroom)
      · exact List.forall₂_map_right_iff.mpr (List.forall₂_same.mpr fun r hr => Step.ofRecord_stored (hpass r hr))
      · obtain ⟨r, hr, rfl⟩ := List.mem_map.mp hst
        exact Step.ofRecord_ok (hpass r hr)
      · rw [← hlength] at hroom
        have hbytes (n : Nat) : be 1 q.val ++ be 1 recs.length ++ be 2 n = qb :: nb :: be 2 n := by
          rw [← hq, ← hn, be_one_toNat, be_one_toNat]
          rfl
        have h := writeProgram_of_room hread (inUse_eq_none hno) hroom
        simp only [hlength, hbytes] at h
        exact exec_answers (c := .writeProgram tag (qb :: nb :: recs.flatten))
          (t := { s with pgs := ⟨s.pgs.programs.set q.val (recs.map Step.ofRecord) q.isLt⟩ }) rfl rfl ht hlane
          ((heffect _).trans h)
  · have hfield : fieldAt [qb] 0 1 = qb.toNat := fieldAt_cons_zero qb []
    have heffect (u : State) : effectOf (.readProgram tag [qb]) u = readProgram [qb] u := rfl
    refine ⟨fun hq => ?_, fun q hq => ⟨(s.pgs.programs[q]).map Step.bytes, List.length_map _, fun r hr => ?_, fun hok => ?_, ?_⟩⟩
    · refine exec_unchanged (c := .readProgram tag [qb]) rfl rfl ht hlane ?_
      rw [heffect, readProgram, programNo, dif_neg (by omega)]
      rfl
    · obtain ⟨st, _, rfl⟩ := List.mem_map.mp hr
      exact st.bytes_length
    · exact List.forall₂_map_left_iff.mpr (List.forall₂_same.mpr fun st hst => (hok st hst).bytes_stored)
    · refine exec_unchanged (c := .readProgram tag [qb]) rfl rfl ht hlane ?_
      have hprog : programNo (fieldAt [qb] 0 1) = some q := by
        unfold programNo
        rw [dif_pos (by omega)]
        exact congrArg some (Fin.ext (hfield.trans hq))
      have hqb : be 1 q.val = [qb] := by rw [← hq, be_one_toNat]
      rw [heffect, readProgram, hprog]
      dsimp only
      rw [hqb, List.length_map, be_one, List.flatMap_def]
      rfl

end Sys2Proof.Proofs
end

section
/-! SUPPORT. READ_TABLE: the records of Tables 13-10 to 13-13 as layouts, and the runs of records that fit a reply
(R57, R153, R172, R192). -/

namespace Sys2Proof.Machine

theorem be_of_zero (n : Nat) : be n 0 = List.replicate n 0 := by
  induction n with
  | zero => rfl
  | succ n ih =>
    unfold be
    rw [Nat.zero_shiftRight, ih]
    rfl

/-- The fill of a record is one more field, of value 0. -/
theorem padTo_layout (n : Nat) (l : List (Nat × Nat)) :
    padTo n (layout l) = layout (l ++ [(n - laidLength l, 0)]) := by
  have hlast : layout [(n - laidLength l, 0)] = be (n - laidLength l) 0 := by simp [layout]
  have hsplit : layout (l ++ [(n - laidLength l, 0)]) = layout l ++ layout [(n - laidLength l, 0)] := by simp [layout]
  rw [padTo, hsplit, hlast, be_of_zero, layout_length]

theorem laid_padTo {n k : Nat} {l : List (Nat × Nat)} {r : List Byte} {fields : List (Nat × Nat × Nat)}
    (hr : r = padTo n (layout l)) (hk : laidLength l + k = n) (hf : fields = placedFrom 0 (l ++ [(k, 0)])) :
    Laid r fields := by
  subst hk
  refine laid_of_layout (rest := []) ?_ hf
  rw [hr, padTo_layout, List.append_nil, Nat.add_sub_cancel_left]

theorem padTo_length {n : Nat} {l : List (Nat × Nat)} (h : laidLength l ≤ n) : (padTo n (layout l)).length = n := by
  rw [padTo, List.length_append, List.length_replicate, layout_length]
  omega

theorem wrapped_field (t : Nat) : be 4 (wrapped t) = be 4 t := be_mod 4 t

/-! ### The records -/

/-- The fields of an occupied slot, each with its number of bytes (Table 13-10). -/
def Entry.fields (i : Slot) (e : Entry) : List (Nat × Nat) :=
  [(2, i.val),
    (1, 1 + (if e.eligible then 2 else 0) + (if e.gate.isSome then 4 else 0) + (if e.dry.isSome then 8 else 0) +
      (if e.dry = some true then 16 else 0) + (if e.overdraft.isSome then 32 else 0) +
      (if e.overdraft = some true then 64 else 0) + if e.lastHeld.isSome then 128 else 0),
    (1, [EntryState.seen, .waiting, .admitted, .released, .bypassed, .ungated].idxOf e.state),
    (1, e.port.val), (1, e.ingress.toNat), (1, e.cls.val), (1, e.band.val), (4, e.hash.toNat), (2, e.service.toNat),
    (2, (e.gate.map fun r => r.gate.val).getD 0), (1, (e.gate.map fun r => r.epoch.toNat).getD 0),
    (3, (e.lastHeld.map (·.toNat)).getD 0), (4, e.cap), (4, e.granted), (4, e.firstSeen), (4, e.lastActivity)]

theorem Entry.fields_length (i : Slot) (e : Entry) : laidLength (e.fields i) = 36 := by simp [laidLength, Entry.fields]

theorem EntryState.code_eq (x : EntryState) :
    x.code = [EntryState.seen, .waiting, .admitted, .released, .bypassed, .ungated].idxOf x := by cases x <;> rfl

theorem mul_bit (n : Nat) (b : Bool) : n * bit b = if b then n else 0 := by cases b <;> simp [bit]

theorem entryFlags_eq (e : Entry) : entryFlags e =
    1 + (if e.eligible then 2 else 0) + (if e.gate.isSome then 4 else 0) + (if e.dry.isSome then 8 else 0) +
      (if e.dry = some true then 16 else 0) + (if e.overdraft.isSome then 32 else 0) +
      (if e.overdraft = some true then 64 else 0) + if e.lastHeld.isSome then 128 else 0 := by
  unfold entryFlags
  simp only [mul_bit, beq_iff_eq]

theorem Entry.bytes_eq (i : Slot) (e : Entry) : e.bytes i = padTo 40 (layout (e.fields i)) := by
  unfold Entry.bytes
  rw [entryFlags_eq, EntryState.code_eq, wrapped_field, wrapped_field]
  cases hgate : e.gate <;> cases hheld : e.lastHeld <;> simp [Entry.fields, layout, hgate, hheld]

/-- The fields of a gate (Table 13-11). -/
def State.gateFields (s : State) (g : GateNo) : List (Nat × Nat) :=
  let x := s.gpm.gate g
  [(2, g.val), (1, if x.bound.isSome then 1 else 0), (1, x.epoch.toNat), (1, (x.bound.map fun y => y.port.val).getD 0),
    (1, [GateMode.closed, .shaped, .opened, .free].idxOf x.mode), (1, if x.res = .fine then 1 else 0),
    (1, if g ∈ s.gpm.fifo then 1 else 0), (4, (x.bound.map fun y => y.hash.toNat).getD 0), (2, x.divisor),
    (1, x.lastAdd.toNat), (1, 0), (4, x.pendingAdd),
    (4, if x.mode = .shaped then reportedRate x.res x.divisor else 0)]

theorem GateMode.code_eq (x : GateMode) : x.code = [GateMode.closed, .shaped, .opened, .free].idxOf x := by
  cases x <;> rfl

theorem Resolution.code_eq (x : Resolution) : x.code = if x = .fine then 1 else 0 := by cases x <;> rfl

theorem gateRecord_eq (s : State) (g : GateNo) : s.gateRecord g.val = padTo 24 (layout (s.gateFields g)) := by
  unfold State.gateRecord
  have hno : Fin.ofNat 1024 g.val = g := Fin.ofNat_val_eq_self g
  dsimp only
  rw [hno, GateMode.code_eq, Resolution.code_eq]
  cases hbound : (s.gpm.gate g).bound <;>
    simp [State.gateFields, Gate.rate, bit, layout, hbound]

/-- The fields of a summary (Table 13-12). -/
def Summary.fields (x : Summary) : List (Nat × Nat) :=
  [(4, x.number), (1, x.port.val), (1, x.program.val), (1, if x.origin = .manual then 1 else 0), (1, x.outcome.code),
    (4, x.openTime.toNat), (4, x.clock), (1, x.peak), (1, x.stepsEntered), (1, x.stepsByGuard),
    (1, if x.standbyDiscarded then 1 else 0), (4, x.admissions), (4, x.overdrafts), (4, x.bypassed), (4, x.ungated),
    (4, x.completed), (4, x.endedHeld), (4, x.credited)]

theorem Summary.fields_length (x : Summary) : laidLength x.fields = 48 := by simp [laidLength, Summary.fields]

theorem Summary.bytes_eq (x : Summary) : x.bytes = padTo 64 (layout x.fields) := by
  unfold Summary.bytes
  rw [Origin.code_eq]
  simp only [Summary.fields, bit, layout, List.flatMap_cons, List.flatMap_nil, List.append_assoc, List.append_nil]

/-- The fields of a port in the PORT table (Table 13-13). -/
def State.portTableFields (s : State) (p : Port) : List (Nat × Nat) :=
  [(1, p.val), (1, (s.prcAt p).state.code), (1, if (s.oevAt p).baseline then 1 else 0), (1, (s.oevAt p).level),
    (1, (s.oevAt p).peak), (1, 0), (2, s.fanIn p), (4, (s.oevAt p).accepted), (4, (s.oevAt p).stale),
    (4, (s.oevAt p).clamps)]

theorem portTableFields_length (s : State) (p : Port) : laidLength (s.portTableFields p) = 20 := by
  simp [laidLength, State.portTableFields]

theorem portTableRecord_eq (s : State) (p : Port) :
    s.portTableRecord p.val = padTo 32 (layout (s.portTableFields p)) := by
  unfold State.portTableRecord
  have hno : Fin.ofNat 48 p.val = p := Fin.ofNat_val_eq_self p
  dsimp only
  rw [hno]
  simp only [State.portTableFields, bit, layout, List.flatMap_cons, List.flatMap_nil, List.append_assoc, List.append_nil]

/-! ### The table a code names -/

section
variable {s : State} {n : Nat}

theorem responderRecord_length (s : State) (n : Nat) : (s.responderRecord n).length = 40 := by
  unfold State.responderRecord
  split
  · rw [Entry.bytes_eq]
    exact padTo_length (by rw [Entry.fields_length]; decide)
  · show (padTo 40 (be 2 n)).length = 40
    simp [padTo]

theorem responderRecord_of_empty {x : Slot} (h : s.rtb.entry? x = none) :
    Laid (s.responderRecord x.val) [(0, 2, x.val), (2, 38, 0)] := by
  have hno : Fin.ofNat 2048 x.val = x := Fin.ofNat_val_eq_self x
  refine laid_padTo (n := 40) (l := [(2, x.val)]) ?_ rfl rfl
  unfold State.responderRecord
  rw [hno, h]
  simp [layout]

theorem responderRecord_of_entry {x : Slot} {e : Entry} (h : s.rtb.entry? x = some e) :
    Laid (s.responderRecord x.val) (placedFrom 0 (e.fields x ++ [(4, 0)])) := by
  have hno : Fin.ofNat 2048 x.val = x := Fin.ofNat_val_eq_self x
  refine laid_padTo (n := 40) (l := e.fields x) ?_ (by rw [e.fields_length]) rfl
  unfold State.responderRecord
  rw [hno, h]
  exact e.bytes_eq x

theorem gateRecord_length (g : GateNo) : (s.gateRecord g.val).length = 24 := by
  rw [gateRecord_eq]
  exact padTo_length (by simp [laidLength, State.gateFields])

theorem gateRecord_laid (g : GateNo) : Laid (s.gateRecord g.val) (placedFrom 0 (s.gateFields g)) := by
  refine laid_of_layout (l := s.gateFields g) (rest := []) ?_ rfl
  rw [gateRecord_eq, padTo, layout_length]
  rfl

theorem portTableRecord_length (p : Port) : (s.portTableRecord p.val).length = 32 := by
  rw [portTableRecord_eq]
  exact padTo_length (by rw [portTableFields_length]; decide)

theorem historyRecord_of_summary {x : Summary} (h : s.ern.history[n]? = some x) :
    s.historyRecord n = padTo 64 (layout x.fields) := by
  unfold State.historyRecord
  rw [h]
  exact x.bytes_eq

theorem historyRecord_length (h : n < s.ern.history.length) : (s.historyRecord n).length = 64 := by
  rw [historyRecord_of_summary (List.getElem?_eq_getElem h)]
  exact padTo_length (by rw [Summary.fields_length]; decide)

/-- The number of entries of a table (Table 12-2). -/
def State.tableSize (s : State) (k : Fin 4) : Nat := #v[2048, 1024, s.ern.history.length, 48][k]

/-- The records of a table that fit a reply. -/
def mostRecords (k : Fin 4) : Nat := #v[25, 42, 15, 31][k]

/-- The bytes of one of its records. -/
def recordSize (k : Fin 4) : Nat := #v[40, 24, 64, 32][k]

theorem tableView_of_table (s : State) (k : Fin 4) : ∃ v, s.tableView k.val = some v ∧ v.size = s.tableSize k ∧
    min v.most v.fit = mostRecords k ∧ v.extra = if k.val = 2 then be 4 s.ern.written else [] := by
  match k with
  | 0 | 1 | 2 | 3 => exact ⟨_, rfl, rfl, rfl, rfl⟩

theorem tableView_of_unknown {code : Nat} (s : State) (h : 3 < code) : s.tableView code = none := by
  obtain ⟨n, rfl⟩ : ∃ n, code = n + 4 := ⟨code - 4, by omega⟩
  rfl

theorem tableRecord_length {k : Fin 4} (h : n < s.tableSize k) : (s.tableRecord k.val n).length = recordSize k := by
  match k with
  | 0 => exact responderRecord_length s n
  | 1 => exact gateRecord_length ⟨n, h⟩
  | 2 => exact historyRecord_length h
  | 3 => exact portTableRecord_length ⟨n, h⟩

/-- The most records of a table fill at most the body of a reply. -/
theorem records_fit (k : Fin 4) (m : Nat) (h : m ≤ mostRecords k) :
    recordSize k * m + (if k.val = 2 then 4 else 0) + 6 ≤ 1024 := by
  match k with
  | 0 =>
    have : m ≤ 25 := h
    show 40 * m + 0 + 6 ≤ 1024
    omega
  | 1 =>
    have : m ≤ 42 := h
    show 24 * m + 0 + 6 ≤ 1024
    omega
  | 2 =>
    have : m ≤ 15 := h
    show 64 * m + 4 + 6 ≤ 1024
    omega
  | 3 =>
    have : m ≤ 31 := h
    show 32 * m + 0 + 6 ≤ 1024
    omega

end

/-! ### READ_TABLE -/

/-- The body of READ_TABLE. -/
def tableBody (code start count : Nat) : List Byte := be 1 code ++ be 2 start ++ be 2 count

theorem tableBody_fields {code start count : Nat} (h1 : code < 256) (h2 : start < 65536) (h3 : count < 65536) :
    fieldAt (tableBody code start count) 0 1 = code ∧ fieldAt (tableBody code start count) 1 2 = start ∧
      fieldAt (tableBody code start count) 3 2 = count := by
  have hlaid : Laid (tableBody code start count) (placedFrom 0 [(1, code), (2, start), (2, count)]) :=
    laid_of_layout (l := [(1, code), (2, start), (2, count)]) (rest := []) (by simp [tableBody, layout]) rfl
  simp only [Laid, placedFrom, List.forall_mem_cons] at hlaid
  obtain ⟨hcode, hstart, hcount, _⟩ := hlaid
  exact ⟨hcode.trans (Nat.mod_eq_of_lt h1), hstart.trans (Nat.mod_eq_of_lt h2), hcount.trans (Nat.mod_eq_of_lt h3)⟩

section
variable {b : List Byte} {s : State}

theorem readTable_of_unknown (h : 3 < fieldAt b 0 1) : readTable b s = refuse .range (be 1 0) s := by
  unfold readTable
  dsimp only
  rw [tableView_of_unknown s h]

theorem readTable_of_beyond {k : Fin 4} (hk : fieldAt b 0 1 = k.val) (h : s.tableSize k ≤ fieldAt b 1 2) :
    readTable b s = refuse .range (be 1 1) s := by
  obtain ⟨v, hv, hsize, _⟩ := tableView_of_table s k
  unfold readTable
  dsimp only
  rw [hk, hv]
  exact if_pos (hsize.trans_le h)

/-- The records of a run, in table order. -/
def State.tableRun (s : State) (k : Fin 4) (start n : Nat) : List (List Byte) :=
  (List.range n).map fun j => s.tableRecord k.val (start + j)

theorem readTable_of_run {k : Fin 4} {start count : Nat} (hk : fieldAt b 0 1 = k.val) (hs : fieldAt b 1 2 = start)
    (hc : fieldAt b 3 2 = count) (h : start < s.tableSize k) :
    let n := min (min count (s.tableSize k - start)) (mostRecords k)
    readTable b s = (s, 0 :: (be 1 k.val ++ be 2 start ++ be 2 n ++ (if k.val = 2 then be 4 s.ern.written else []) ++
      (s.tableRun k start n).flatten)) := by
  obtain ⟨v, hv, hsize, hmost, hextra⟩ := tableView_of_table s k
  unfold readTable
  dsimp only
  rw [hk, hs, hc, hv]
  dsimp only
  rw [if_neg (by omega), hsize, hmost, hextra, State.tableRun, List.flatMap_def]
  rfl

theorem State.tableRun_flatten_length {k : Fin 4} {start n : Nat} (h : start + n ≤ s.tableSize k) :
    (s.tableRun k start n).flatten.length = recordSize k * n := by
  have hall : ∀ r ∈ s.tableRun k start n, r.length = recordSize k := fun r hr => by
    obtain ⟨j, hj, rfl⟩ := List.mem_map.mp hr
    exact tableRecord_length (by have := List.mem_range.mp hj; omega)
  rw [flatten_length_of_forall hall]
  simp [State.tableRun]

end

end Sys2Proof.Machine

namespace Sys2Proof.Proofs

open Sys2Proof Sys2Proof.Machine

/-- Settles O58. -/
theorem tablesAreReadInRuns : Obligations.TablesAreReadInRuns := by
  intro s tag code start count hlane hcode hstart hcount _ ht
  obtain ⟨fcode, fstart, fcount⟩ := tableBody_fields hcode hstart hcount
  have hanswer {b : List Byte} (h : readTable (tableBody code start count) { s with clc := s.clc.taken } =
      ({ s with clc := s.clc.taken }, b)) : exec (.readTable tag (tableBody code start count)) s =
        .next { s with clc := s.clc.answered ⟨0xD0, tag, b⟩ } := by
    refine exec_unchanged (c := .readTable tag (tableBody code start count)) rfl rfl ht hlane (.trans ?_ h)
    exact congrFun (checked_of_length (n := 5) rfl (by simp [tableBody]) readTable) _
  refine ⟨fun h => hanswer (readTable_of_unknown (fcode.symm ▸ h)), fun k hk => ⟨fun h => ?_, fun h => ?_⟩⟩
  · exact hanswer (readTable_of_beyond (k := k) (fcode.trans hk) (fstart.symm ▸ h))
  · have hrun := hanswer (readTable_of_run (k := k) (fcode.trans hk) fstart fcount h)
    have hn : start + min (min count (s.tableSize k - start)) (mostRecords k) ≤ s.tableSize k := by
      have : start < s.tableSize k := h
      omega
    have hfit := records_fit k (min (min count (s.tableSize k - start)) (mostRecords k)) (Nat.min_le_right _ _)
    have hlen := State.tableRun_flatten_length hn
    have hat (j : Nat) (hj : j < (s.tableRun k start (min (min count (s.tableSize k - start)) (mostRecords k))).length) :
        (s.tableRun k start (min (min count (s.tableSize k - start)) (mostRecords k)))[j] = s.tableRecord k.val (start + j) := by
      simp [State.tableRun]
    refine ⟨s.tableRun k start (min (min count (s.tableSize k - start)) (mostRecords k)), by simp [State.tableRun]; rfl,
      fun j hj => ?_, ?_, ?_⟩
    · rw [hat j hj]
      have hlt : start + j < s.tableSize k := by simp [State.tableRun] at hj; omega
      refine ⟨tableRecord_length hlt, ?_, ?_, ?_, ?_⟩
      · rintro rfl x hx
        rw [← hx]
        exact ⟨responderRecord_of_empty, fun e he => responderRecord_of_entry he⟩
      · rintro rfl g hg
        rw [← hg]
        exact gateRecord_laid g
      · rintro rfl x hx
        exact laid_padTo (historyRecord_of_summary hx) (by rw [x.fields_length]) rfl
      · rintro rfl p hp
        rw [← hp]
        exact laid_padTo (portTableRecord_eq s p) (by rw [portTableFields_length]) rfl
    · subst hk
      have hextra : (if k.val = 2 then be 4 s.ern.written else []).length = if k.val = 2 then 4 else 0 := by
        split <;> simp
      simp only [List.length_cons, List.length_append, be_length, hlen]
      rw [hextra]
      omega
    · subst hk
      exact hrun

end Sys2Proof.Proofs
end

section
/-! SUPPORT. Inbound records: the layouts of Table 13-3 read back, and the checks in their order (R13, R194). -/

namespace Sys2Proof.Machine

section
variable {l : List Byte}

theorem readPort_of_lt {n : Nat} {p : Port} (h : n = p.val) : readPort n = .ok p := by
  subst h
  exact dif_pos p.isLt

theorem readPort_of_ge {n : Nat} (h : 48 ≤ n) : readPort n = .error .portRange := dif_neg (by omega)

theorem readGateRef_of_lt {g n : Nat} {r : GateRef} (hg : g = r.gate.val) (hn : n = r.epoch.toNat) :
    readGateRef g n = .ok r := by
  subst hg hn
  unfold readGateRef
  rw [dif_pos r.gate.isLt, if_pos r.epoch.isLt, BitVec.ofNat_toNat]
  rfl

theorem readGateRef_gateRange {g n : Nat} (h : 1024 ≤ g) : readGateRef g n = .error .gateRange := dif_neg (by omega)

theorem readGateRef_epochRange {g n : Nat} (hg : g < 1024) (h : 16 ≤ n) : readGateRef g n = .error .epochRange := by
  unfold readGateRef
  rw [dif_pos hg, if_neg (by omega)]

/-! ### The checks -/

theorem readRecord_kind (h : fieldAt l 0 1 ∉ [1, 2, 3, 4, 5]) : readRecord l = .error .recordKind := by
  unfold readRecord
  split
  case h_6 => rfl
  all_goals exact absurd (by simp_all) h

theorem readRecord_port (hk : fieldAt l 0 1 ∈ [1, 2, 3]) {k : FaultKind} (h : readPort (fieldAt l 1 1) = .error k) :
    readRecord l = .error k := by
  simp only [List.mem_cons, List.not_mem_nil, or_false] at hk
  unfold readRecord
  rcases hk with hk | hk | hk <;> rw [hk, h] <;> rfl

theorem readRecord_gate (hk : fieldAt l 0 1 ∈ [4, 5]) {k : FaultKind}
    (h : readGateRef (fieldAt l 2 2) (fieldAt l 4 1) = .error k) : readRecord l = .error k := by
  simp only [List.mem_cons, List.not_mem_nil, or_false] at hk
  unfold readRecord
  rcases hk with hk | hk <;> rw [hk, h] <;> rfl

theorem readRecord_flowEnd_gate (hk : fieldAt l 0 1 = 3) (hp : fieldAt l 1 1 < 48) (hflag : fieldAt l 6 1 % 2 = 1)
    {k : FaultKind} (h : readGateRef (fieldAt l 8 2) (fieldAt l 7 1) = .error k) : readRecord l = .error k := by
  unfold readRecord
  rw [hk, readPort_of_lt (p := ⟨_, hp⟩) rfl, h]
  exact if_pos hflag

/-! ### The fields -/

section
variable {p : Port} (hp : fieldAt l 1 1 = p.val)
include hp

theorem readRecord_occupancy (hk : fieldAt l 0 1 = 1) : readRecord l = .ok (.occupancy p
    (BitVec.ofNat 16 (fieldAt l 2 2)) (BitVec.ofNat 16 (fieldAt l 4 2)) (BitVec.ofNat 32 (fieldAt l 6 4))) := by
  unfold readRecord
  rw [hk, readPort_of_lt hp]
  rfl

theorem readRecord_sighting (hk : fieldAt l 0 1 = 2) : readRecord l = .ok (.sighting (BitVec.ofNat 32 (fieldAt l 2 4)) p
    (BitVec.ofNat 6 (fieldAt l 6 1)) (BitVec.ofNat 16 (fieldAt l 7 2))) := by
  unfold readRecord
  rw [hk, readPort_of_lt hp]
  rfl

theorem readRecord_flowEnd_held (hk : fieldAt l 0 1 = 3) (hflag : fieldAt l 6 1 % 2 = 1) {r : GateRef}
    (hg : fieldAt l 8 2 = r.gate.val) (he : fieldAt l 7 1 = r.epoch.toNat) :
    readRecord l = .ok (.flowEnd (BitVec.ofNat 32 (fieldAt l 2 4)) p (some r) (BitVec.ofNat 24 (fieldAt l 10 3))) := by
  unfold readRecord
  rw [hk, readPort_of_lt hp, readGateRef_of_lt hg he]
  exact if_pos hflag

theorem readRecord_flowEnd_free (hk : fieldAt l 0 1 = 3) (hflag : fieldAt l 6 1 % 2 ≠ 1) :
    readRecord l = .ok (.flowEnd (BitVec.ofNat 32 (fieldAt l 2 4)) p none (BitVec.ofNat 24 (fieldAt l 10 3))) := by
  unfold readRecord
  rw [hk, readPort_of_lt hp]
  exact if_neg hflag

end

section
variable {r : GateRef} (hg : fieldAt l 2 2 = r.gate.val) (he : fieldAt l 4 1 = r.epoch.toNat)
include hg he

theorem readRecord_gateSpent (hk : fieldAt l 0 1 = 4) : readRecord l = .ok (.gateSpent r.gate r.epoch
    (BitVec.ofNat 8 (fieldAt l 5 1)) (BitVec.ofNat 32 (fieldAt l 6 4))) := by
  unfold readRecord
  rw [hk, readGateRef_of_lt hg he]
  rfl

theorem readRecord_holdPressure (hk : fieldAt l 0 1 = 5) : readRecord l = .ok (.holdPressure r.gate r.epoch
    (BitVec.ofNat 32 (fieldAt l 6 4)) (BitVec.ofNat 24 (fieldAt l 10 3))) := by
  unfold readRecord
  rw [hk, readGateRef_of_lt hg he]
  rfl

end

end

/-! ### Records laid out -/

/-- The fields of an inbound record, each with its number of bytes (Table 13-3). -/
def recordFields : InRecord → List (Nat × Nat)
  | .occupancy p seq cells d => [(1, 1), (1, p.val), (2, seq.toNat), (2, cells.toNat), (4, d.toNat)]
  | .sighting h p ing srv => [(1, 2), (1, p.val), (4, h.toNat), (1, ing.toNat), (2, srv.toNat)]
  | .flowEnd h p (some r) left =>
    [(1, 3), (1, p.val), (4, h.toNat), (1, 1), (1, r.epoch.toNat), (2, r.gate.val), (3, left.toNat)]
  | .flowEnd h p none left => [(1, 3), (1, p.val), (4, h.toNat), (1, 0), (1, 0), (2, 0), (3, left.toNat)]
  | .gateSpent g ep echo h => [(1, 4), (1, 0), (2, g.val), (1, ep.toNat), (1, echo.toNat), (4, h.toNat)]
  | .holdPressure g ep h held =>
    [(1, 5), (1, 0), (2, g.val), (1, ep.toNat), (1, 0), (4, h.toNat), (3, held.toNat)]

theorem recordBytes_eq (r : InRecord) : recordBytes r = padTo 16 (layout (recordFields r)) := by
  rcases r with _ | _ | ⟨_, _, _ | _, _⟩ | _ | _ <;>
    simp only [recordBytes, recordFields, layout, List.flatMap_cons, List.flatMap_nil, List.append_assoc, List.append_nil]

theorem recordBytes_length (r : InRecord) : (recordBytes r).length = 16 := by
  rw [recordBytes_eq]
  refine padTo_length ?_
  rcases r with _ | _ | ⟨_, _, _ | _, _⟩ | _ | _ <;> simp [recordFields, laidLength]

theorem recordBytes_laid (r : InRecord) : Laid (recordBytes r) (placedFrom 0 (recordFields r)) := by
  refine laid_of_layout (l := recordFields r) (rest := List.replicate (16 - laidLength (recordFields r)) 0) ?_ rfl
  rw [recordBytes_eq, padTo, layout_length]

/-- A word read back from a field wide enough for it. -/
theorem ofNat_field {w n : Nat} (x : BitVec w) (h : w ≤ 8 * n) : BitVec.ofNat w (x.toNat % 256 ^ n) = x := by
  have hlt : x.toNat < 256 ^ n := by
    rw [show (256 : Nat) = 2 ^ 8 from rfl, ← Nat.pow_mul]
    exact x.isLt.trans_le (Nat.pow_le_pow_right (by decide) h)
  rw [Nat.mod_eq_of_lt hlt, BitVec.ofNat_toNat, BitVec.setWidth_eq]

theorem readRecord_recordBytes (r : InRecord) : readRecord (recordBytes r) = .ok r := by
  have hlaid := recordBytes_laid r
  match r with
  | .occupancy p seq cells d =>
    simp only [Laid, recordFields, placedFrom, List.forall_mem_cons] at hlaid
    obtain ⟨hkind, hport, hseq, hcells, hd, _⟩ := hlaid
    rw [readRecord_occupancy (p := p) (hport.trans (Nat.mod_eq_of_lt (by omega))) hkind, hseq, hcells, hd,
      ofNat_field seq (by decide), ofNat_field cells (by decide), ofNat_field d (by decide)]
  | .sighting h p ing srv =>
    simp only [Laid, recordFields, placedFrom, List.forall_mem_cons] at hlaid
    obtain ⟨hkind, hport, hhash, hing, hsrv, _⟩ := hlaid
    rw [readRecord_sighting (p := p) (hport.trans (Nat.mod_eq_of_lt (by omega))) hkind, hhash, hing, hsrv,
      ofNat_field h (by decide), ofNat_field ing (by decide), ofNat_field srv (by decide)]
  | .flowEnd h p (some g) left =>
    simp only [Laid, recordFields, placedFrom, List.forall_mem_cons] at hlaid
    obtain ⟨hkind, hport, hhash, hflag, hepoch, hgate, hleft, _⟩ := hlaid
    have hlt := g.epoch.isLt
    rw [readRecord_flowEnd_held (p := p) (r := g) (hport.trans (Nat.mod_eq_of_lt (by omega))) hkind (by rw [hflag]; rfl)
      (hgate.trans (Nat.mod_eq_of_lt (by omega))) (hepoch.trans (Nat.mod_eq_of_lt (by omega))), hhash, hleft,
      ofNat_field h (by decide), ofNat_field left (by decide)]
  | .flowEnd h p none left =>
    simp only [Laid, recordFields, placedFrom, List.forall_mem_cons] at hlaid
    obtain ⟨hkind, hport, hhash, hflag, _, _, hleft, _⟩ := hlaid
    rw [readRecord_flowEnd_free (p := p) (hport.trans (Nat.mod_eq_of_lt (by omega))) hkind (by rw [hflag]; decide), hhash,
      hleft, ofNat_field h (by decide), ofNat_field left (by decide)]
  | .gateSpent g ep echo h =>
    simp only [Laid, recordFields, placedFrom, List.forall_mem_cons] at hlaid
    obtain ⟨hkind, _, hgate, hepoch, hecho, hhash, _⟩ := hlaid
    have hlt := ep.isLt
    rw [readRecord_gateSpent (r := ⟨g, ep⟩) (hgate.trans (Nat.mod_eq_of_lt (by omega)))
      (hepoch.trans (Nat.mod_eq_of_lt (by omega))) hkind, hecho, hhash, ofNat_field echo (by decide),
      ofNat_field h (by decide)]
  | .holdPressure g ep h held =>
    simp only [Laid, recordFields, placedFrom, List.forall_mem_cons] at hlaid
    obtain ⟨hkind, _, hgate, hepoch, _, hhash, hheld, _⟩ := hlaid
    have hlt := ep.isLt
    rw [readRecord_holdPressure (r := ⟨g, ep⟩) (hgate.trans (Nat.mod_eq_of_lt (by omega)))
      (hepoch.trans (Nat.mod_eq_of_lt (by omega))) hkind, hhash, hheld, ofNat_field h (by decide),
      ofNat_field held (by decide)]

end Sys2Proof.Machine

namespace Sys2Proof.Proofs

open Sys2Proof Sys2Proof.Machine

/-- Settles O22. -/
theorem recordsReadBack : Obligations.RecordsReadBack := by
  refine ⟨fun r => ⟨recordBytes_length r, readRecord_recordBytes r⟩, fun l => ⟨readRecord_kind, fun hk h => ?_,
    fun hk h => ?_, fun hk hg h => ?_, fun hk hp hflag h => ?_, fun hk hp hflag hg h => ?_⟩⟩
  · exact readRecord_port hk (readPort_of_ge h)
  · exact readRecord_gate hk (readGateRef_gateRange h)
  · exact readRecord_gate hk (readGateRef_epochRange hg h)
  · exact readRecord_flowEnd_gate hk hp hflag (readGateRef_gateRange h)
  · exact readRecord_flowEnd_gate hk hp hflag (readGateRef_epochRange hg h)

end Sys2Proof.Proofs
end

section
/-! SUPPORT. The frame receiver over whole frames, well formed and malformed, and what a frame event does by link
state (R1 to R6, R12 to R14). -/

namespace Sys2Proof.Machine

/-! ### The receiver beside the transmitters -/

/-- The state with another receiver. -/
def State.withRx (rx : FabRx) (s : State) : State := { s with flc := { s.flc with rx := rx } }

theorem State.withRx_of_eq {s : State} {rx : FabRx} (h : s.flc.rx = rx) : s.withRx rx = s := by
  subst h
  rfl

theorem ctlPump_flc (s : State) (f : Flc) : ctlPump { s with flc := f } = { ctlPump s with flc := f } := by
  unfold ctlPump
  dsimp only
  split
  · rfl
  · split
    · rfl
    · split <;> rfl

theorem fabPump_withRx {s : State} (h : s.flc.link ≠ .stopping) (rx : FabRx) :
    fabPump (s.withRx rx) = (fabPump s).withRx rx := by
  unfold fabPump beginOrderFrame beginFrame enterDown State.withRx
  simp only [State.modLink, State.setLink, State.raiseDevice, State.raise, State.stamp, State.now, if_neg h]
  split_ifs <;> rfl

/-- Settling does not read the receiver, but on the way to DOWN. -/
theorem settle_withRx {s : State} (h : s.settled ∨ s.flc.link ≠ .stopping) (rx : FabRx) :
    settle (s.withRx rx) = (settle s).withRx rx := by
  rcases h with h | h
  · rw [settle_eq_of_settled h]
    exact settle_eq_of_settled (s := s.withRx rx) h
  · unfold settle
    rw [fabPump_withRx h]
    have hflc := (ctlPump_frame (fabPump s)).2.2.1
    unfold State.withRx
    rw [ctlPump_flc, hflc]

theorem fabPump_link {s : State} (h : s.flc.link ≠ .stopping) : (fabPump s).flc.link = s.flc.link := by
  unfold fabPump
  split_ifs <;> rfl

/-! ### The bytes of a frame -/

/-- The bytes received leave the frame being read (R1, Table 1-1). -/
def Continues (got : List Byte) : Prop :=
  fieldAt got 0 1 ≤ 32 ∧ (got.length = 2 → fieldAt got 1 1 = 1) ∧ got.length < frameBytes (fieldAt got 0 1)

theorem next_of_continues {bs : List Byte} {b : Byte} (h : Continues (bs ++ [b])) :
    (FabRx.reading bs).next (.data b) = (.reading (bs ++ [b]), none) := by
  obtain ⟨hcount, hversion, hmore⟩ := h
  unfold FabRx.next
  dsimp only
  rw [if_neg (by omega), if_neg (by simpa using hversion), if_pos hmore]

theorem continues_prefix {l : List Byte} {k : Nat} (hcount : fieldAt l 0 1 ≤ 32) (hversion : fieldAt l 1 1 = 1)
    (h0 : 0 < k) (hk : k < frameBytes (fieldAt l 0 1)) (hl : k ≤ l.length) : Continues (l.take k) := by
  have hlen : (l.take k).length = k := List.length_take_of_le hl
  have hfield : fieldAt (l.take k) 0 1 = fieldAt l 0 1 :=
    fieldAt_of_prefix (List.take_prefix k l) 0 1 (by omega)
  refine ⟨hfield.trans_le hcount, fun h2 => ?_, by rw [hfield, hlen]; exact hk⟩
  rw [fieldAt_of_prefix (List.take_prefix k l) 1 1 (by omega), hversion]

section
variable {u : State} (hu : u.settled) (hlink : u.flc.link ≠ .down)
include hu hlink

theorem settle_takeSymbol_quiet {rx rx' : FabRx} {x : LaneSym} (h : rx.next x = (rx', none)) :
    settle (takeSymbol (u.withRx rx) x) = u.withRx rx' := by
  have htake : takeSymbol (u.withRx rx) x = u.withRx rx' := by
    unfold takeSymbol
    rw [if_neg (show (u.withRx rx).flc.link ≠ .down from hlink), show (u.withRx rx).flc.rx = rx from rfl, h]
    rfl
  rw [htake]
  exact settle_eq_of_settled (s := u.withRx rx') hu

omit hu in
theorem takeSymbol_event {rx rx' : FabRx} {x : LaneSym} {e : FrameEvent} (h : rx.next x = (rx', some e)) :
    takeSymbol (u.withRx rx) x = takeFrameEvent e (u.withRx rx') := by
  unfold takeSymbol
  rw [if_neg (show (u.withRx rx).flc.link ≠ .down from hlink), show (u.withRx rx).flc.rx = rx from rfl, h]
  rfl

theorem takeSymbols_data {bs more : List Byte}
    (h : ∀ k, 0 < k → k ≤ more.length → Continues (bs ++ more.take k)) :
    (more.map .data).foldl (fun s x => settle (takeSymbol s x)) (u.withRx (.reading bs)) =
      u.withRx (.reading (bs ++ more)) := by
  induction more generalizing bs with
  | nil => rw [List.append_nil]; rfl
  | cons b more ih =>
    have hfirst := h 1 (by decide) (by simp)
    rw [List.take_succ_cons, List.take_zero] at hfirst
    rw [List.map_cons, List.foldl_cons, settle_takeSymbol_quiet hu hlink (next_of_continues hfirst), ih fun k h0 hk => ?_]
    · rw [List.append_assoc]
      rfl
    · have hnext := h (k + 1) (by omega) (by simp; omega)
      rwa [List.take_succ_cons, List.append_cons] at hnext

end

/-- A frame of which every symbol but the last leaves the receiver reading. -/
theorem exec_frame {s : State} {pre : List Byte} {x : LaneSym} {rx : FabRx} {e : FrameEvent} (hrun : s.phase = .running)
    (hrx : s.flc.rx = .hunting) (hdown : s.flc.link ≠ .down) (hs : s.settled ∨ s.flc.link ≠ .stopping)
    (hpre : ∀ k, 0 < k → k ≤ pre.length → Continues (pre.take k)) (hx : (FabRx.reading pre).next x = (rx, some e)) :
    exec (.fabricFrameEvent (.sync :: pre.map .data ++ [x])) s =
      .next (settle (takeFrameEvent e ((settle s).withRx rx))) := by
  have hlink : (settle s).flc.link ≠ .down := by
    rcases hs with hs | hs
    · rw [settle_eq_of_settled hs]
      exact hdown
    · have hflc := (ctlPump_frame (fabPump s)).2.2.1
      unfold settle
      rw [hflc, fabPump_link hs]
      exact hdown
  have hsync : settle (takeSymbol s .sync) = (settle s).withRx (.reading []) := by
    have htake : takeSymbol s .sync = s.withRx (.reading []) := by
      unfold takeSymbol
      rw [if_neg hdown, hrx]
      rfl
    rw [htake, settle_withRx hs]
  have hrest := takeSymbols_data (settle_settled s) hlink (bs := []) hpre
  rw [List.nil_append] at hrest
  have hfold : exec (.fabricFrameEvent (.sync :: pre.map .data ++ [x])) s =
      .next ((LaneSym.sync :: pre.map LaneSym.data ++ [x]).foldl (fun s x => settle (takeSymbol s x)) s) := if_pos hrun
  rw [hfold, List.cons_append, List.foldl_cons, hsync, List.foldl_append, hrest, List.foldl_cons, List.foldl_nil,
    takeSymbol_event hlink hx]

/-! ### Frames -/

section
variable {seq : BitVec 16} {records : List (List Byte)} (hlen : records.length ≤ 32) (h16 : ∀ r ∈ records, r.length = 16)
include hlen h16

omit hlen in
theorem fabricCovered_length : (fabricCovered seq records).length = 4 + 16 * records.length := by
  unfold fabricCovered
  simp only [List.length_append, be_length]
  rw [flatten_length_of_forall h16]

omit h16 in
theorem fabricCovered_fields (c : List Byte) : fieldAt (fabricCovered seq records ++ c) 0 1 = records.length ∧
    fieldAt (fabricCovered seq records ++ c) 1 1 = 1 ∧ fieldAt (fabricCovered seq records ++ c) 2 2 = seq.toNat := by
  have hlaid : Laid (fabricCovered seq records ++ c) (placedFrom 0 [(1, records.length), (1, 1), (2, seq.toNat)]) := by
    refine laid_of_layout (l := [(1, records.length), (1, 1), (2, seq.toNat)]) (rest := records.flatten ++ c) ?_ rfl
    simp [fabricCovered, layout]
  simp only [Laid, placedFrom, List.forall_mem_cons] at hlaid
  obtain ⟨hcount, hversion, hseq, _⟩ := hlaid
  exact ⟨hcount.trans (Nat.mod_eq_of_lt (by omega)), hversion, hseq.trans (Nat.mod_eq_of_lt seq.isLt)⟩

omit h16 in
theorem frame_continues {c : List Byte} {k : Nat} (h0 : 0 < k) (hk : k < 8 + 16 * records.length)
    (hl : k ≤ (fabricCovered seq records ++ c).length) : Continues ((fabricCovered seq records ++ c).take k) := by
  obtain ⟨hcount, hversion, _⟩ := fabricCovered_fields (seq := seq) hlen c
  refine continues_prefix (by rw [hcount]; exact hlen) hversion h0 ?_ hl
  rw [hcount]
  exact hk

/-- The last byte of a frame of the right length. -/
theorem next_last {bs : List Byte} {b : Byte} {c : List Byte} (h4 : c.length = 4)
    (hbs : bs ++ [b] = fabricCovered seq records ++ c) : (FabRx.reading bs).next (.data b) =
      if readBE c = (crc32 (fabricCovered seq records)).toNat then (.hunting, some (.wellFormed seq records))
      else (.hunting, some (.malformed (some seq))) := by
  obtain ⟨hcount, hversion, hseq⟩ := fabricCovered_fields (seq := seq) hlen c
  have hcovered := fabricCovered_length (seq := seq) h16
  have hall : (fabricCovered seq records ++ c).length = 8 + 16 * records.length := by
    rw [List.length_append, hcovered, h4]
    omega
  have htake : (fabricCovered seq records ++ c).take (4 + 16 * records.length) = fabricCovered seq records :=
    List.take_left' hcovered
  have hdrop : (fabricCovered seq records ++ c).drop (4 + 16 * records.length) = c := List.drop_left' hcovered
  have hrecords : cutRecords records.length ((fabricCovered seq records).drop 4) = records := by
    have hhead : (be 1 records.length ++ be 1 1 ++ be 2 seq.toNat).length = 4 := by simp
    have hcut := cutRecords_flatten h16 []
    rw [List.append_nil] at hcut
    unfold fabricCovered
    rw [List.drop_left' hhead, hcut]
  have hfield : seqField (fabricCovered seq records ++ c) = some seq := by
    unfold seqField
    rw [if_pos (by omega), hseq, BitVec.ofNat_toNat, BitVec.setWidth_eq]
  unfold FabRx.next
  dsimp only
  rw [hbs, hcount, hall, hversion, hseq, htake, hdrop, hfield, hrecords, if_neg (by omega), if_neg (by omega),
    if_neg (by unfold frameBytes; omega), BitVec.ofNat_toNat, BitVec.setWidth_eq]

end

/-- The bytes before the last of a frame. -/
theorem frame_split {seq : BitVec 16} {records : List (List Byte)} {c : List Byte} (hlen : records.length ≤ 32)
    (h16 : ∀ r ∈ records, r.length = 16) (h4 : c.length = 4) : ∃ bs b, bs ++ [b] = fabricCovered seq records ++ c ∧
      ∀ k, 0 < k → k ≤ bs.length → Continues (bs.take k) := by
  have hne : fabricCovered seq records ++ c ≠ [] := List.append_ne_nil_of_right_ne_nil _ (by
    rintro rfl
    exact absurd h4 (by decide))
  have hsplit := List.dropLast_append_getLast hne
  refine ⟨_, _, hsplit, fun k h0 hk => ?_⟩
  have hall : (fabricCovered seq records ++ c).length = 8 + 16 * records.length := by
    rw [List.length_append, fabricCovered_length h16, h4]
    omega
  rw [List.length_dropLast, hall] at hk
  have hprefix : (fabricCovered seq records ++ c).dropLast.take k = (fabricCovered seq records ++ c).take k := by
    rw [List.dropLast_eq_take, List.take_take, Nat.min_eq_left (by omega)]
  rw [hprefix]
  exact frame_continues hlen h0 (by omega) (by omega)

section
variable {s : State} (hrun : s.phase = .running) (hrx : s.flc.rx = .hunting) (hdown : s.flc.link ≠ .down)
  (hs : s.settled ∨ s.flc.link ≠ .stopping)
include hrun hrx hdown hs

/-- A well-formed frame is one event (R1). -/
theorem exec_wellFormed {seq : BitVec 16} {records : List (List Byte)} (hlen : records.length ≤ 32)
    (h16 : ∀ r ∈ records, r.length = 16) : exec (.fabricFrameEvent (fabricFrame seq records)) s =
      .next (settle (takeFrameEvent (.wellFormed seq records) ((settle s).withRx .hunting))) := by
  have h4 : (be 4 (crc32 (fabricCovered seq records)).toNat).length = 4 := be_length ..
  obtain ⟨bs, b, hbs, hpre⟩ := frame_split (seq := seq) hlen h16 h4
  have hnext := next_last hlen h16 h4 hbs
  have hcrc : readBE (be 4 (crc32 (fabricCovered seq records)).toNat) = (crc32 (fabricCovered seq records)).toNat := by
    rw [readBE_be]
    exact Nat.mod_eq_of_lt (crc32 _).isLt
  rw [if_pos hcrc] at hnext
  have hsyms : fabricFrame seq records = .sync :: bs.map .data ++ [.data b] := by
    unfold fabricFrame
    rw [← hbs, List.map_append]
    rfl
  rw [hsyms]
  exact exec_frame hrun hrx hdown hs hpre hnext

/-- A malformed frame is one event, at the symbol that shows it (R1, R6, Table 1-1). -/
theorem exec_malformed {syms : List LaneSym} {seq : Option (BitVec 16)} {rx : FabRx} (h : MalformedRun syms seq rx) :
    exec (.fabricFrameEvent syms) s =
      .next (settle (takeFrameEvent (.malformed seq) ((settle s).withRx rx))) := by
  cases h with
  | count n hn =>
    refine exec_frame (pre := []) (x := .data n) hrun hrx hdown hs (fun k h0 hk => absurd hk (by simp; omega)) ?_
    unfold FabRx.next
    dsimp only
    rw [List.nil_append, fieldAt_cons_zero, if_pos hn]
    rfl
  | version n v hn hv =>
    have hfield : fieldAt [n, v] 1 1 = v.toNat := (fieldAt_cons_succ ..).trans (fieldAt_cons_zero ..)
    have hne : v.toNat ≠ 1 := fun h => hv (BitVec.eq_of_toNat_eq h)
    refine exec_frame (pre := [n]) (x := .data v) hrun hrx hdown hs (fun k h0 hk => ?_) ?_
    · obtain rfl : k = 1 := by simp at hk; omega
      have hcount : fieldAt [n] 0 1 = n.toNat := fieldAt_cons_zero ..
      refine ⟨hcount.trans_le hn, fun h => absurd (show 1 = 2 from h) (by decide), ?_⟩
      show 1 < 8 + 16 * _
      omega
    · unfold FabRx.next
      dsimp only
      rw [List.singleton_append, fieldAt_cons_zero, if_neg (by omega), hfield, if_pos ⟨rfl, hne⟩]
      rfl
  | crc seq records c hlen h16 h4 hc =>
    obtain ⟨bs, b, hbs, hpre⟩ := frame_split (seq := seq) hlen h16 h4
    have hnext := next_last hlen h16 h4 hbs
    rw [if_neg hc] at hnext
    rw [← hbs, List.map_append]
    exact exec_frame hrun hrx hdown hs hpre hnext
  | sync seq records n hlen h16 hn =>
    have hall : (fabricCovered seq records ++ be 4 (crc32 (fabricCovered seq records)).toNat).length =
        8 + 16 * records.length := by
      rw [List.length_append, fabricCovered_length h16, be_length]
      omega
    have htaken := List.length_take_of_le (hn.le.trans hall.ge)
    have hsyms : (fabricFrame seq records).take (n + 1) ++ [.sync] =
        .sync :: ((fabricCovered seq records ++ be 4 (crc32 (fabricCovered seq records)).toNat).take n).map .data ++ [.sync] := by
      unfold fabricFrame
      rw [List.take_succ_cons, List.map_take]
    rw [hsyms]
    refine exec_frame hrun hrx hdown hs (fun k h0 hk => ?_) ?_
    · rw [htaken] at hk
      rw [List.take_take, Nat.min_eq_left hk]
      exact frame_continues hlen h0 (by omega) (by omega)
    · have hfield : seqField ((fabricCovered seq records ++ be 4 (crc32 (fabricCovered seq records)).toNat).take n) =
          if 4 ≤ n then some seq else none := by
        unfold seqField
        rw [htaken]
        split
        · next h4 =>
          obtain ⟨_, _, hseq⟩ := fabricCovered_fields (seq := seq) hlen (be 4 (crc32 (fabricCovered seq records)).toNat)
          rw [fieldAt_of_prefix (List.take_prefix n _) 2 2 (by omega), hseq, BitVec.ofNat_toNat, BitVec.setWidth_eq]
        · rfl
      rw [← hfield]
      rfl

end

/-! ### The records of a taken frame (R13, R14) -/

/-- The state with records handed over. -/
def State.handOn (rs : List InRecord) (s : State) : State :=
  { s with flc := { s.flc with handed := s.flc.handed ++ rs } }

theorem examineRecords_good (seq : BitVec 16) (rs : List InRecord) (k : Nat) (s : State) :
    ((rs.map recordBytes).zipIdx k).foldl (examineRecord seq) s = s.handOn rs := by
  induction rs generalizing k s with
  | nil =>
    unfold State.handOn
    rw [List.append_nil]
    rfl
  | cons r rs ih =>
    have hone : examineRecord seq s (recordBytes r, k) = s.handOn [r] := by
      unfold examineRecord
      dsimp only
      rw [readRecord_recordBytes]
      rfl
    rw [List.map_cons, List.zipIdx_cons, List.foldl_cons, hone, ih]
    unfold State.handOn
    simp

/-- A record that fails a check. -/
def State.refuseRecord (seq : BitVec 16) (k : FaultKind) (index : Nat) (s : State) : State :=
  let n := sat32 (s.flc.ctr.recordErrors + 1)
  { s with
    flc := { s.flc with ctr := { s.flc.ctr with recordErrors := n } }
    ern := (s.ern.offer k seq index s.stamp).raise .recordError none 0 n s.stamp }

theorem examineRecords_bad (seq : BitVec 16) (rs more : List InRecord) {bad : List Byte} {k : FaultKind}
    (h : readRecord bad = .error k) (s : State) :
    examineRecords seq (rs.map recordBytes ++ bad :: more.map recordBytes) s =
      ((s.handOn rs).refuseRecord seq k rs.length).handOn more := by
  have hone : examineRecord seq (s.handOn rs) (bad, 0 + (rs.map recordBytes).length) =
      (s.handOn rs).refuseRecord seq k rs.length := by
    unfold examineRecord
    dsimp only
    rw [h, Nat.zero_add, List.length_map]
    rfl
  unfold examineRecords
  rw [List.zipIdx_append, List.foldl_append, List.zipIdx_cons, List.foldl_cons, examineRecords_good seq rs 0 s, hone,
    examineRecords_good]

/-! ### Frame events (R2 to R6) -/

section
variable {s : State}

theorem takeFrameEvent_discarded (e : FrameEvent) (h : s.flc.link = .faulted ∨ s.flc.link = .stopping) :
    takeFrameEvent e s = countDiscarded s := by
  unfold takeFrameEvent
  rcases h with h | h <;> rw [h]

theorem takeFrameEvent_syncing (h : s.flc.link = .syncing) (seq : BitVec 16) (rs : List (List Byte)) :
    takeFrameEvent (.wellFormed seq rs) s = takeSyncing seq rs s := by
  unfold takeFrameEvent
  rw [h]

theorem takeFrameEvent_malformed_syncing (h : s.flc.link = .syncing) (seq : Option (BitVec 16)) :
    takeFrameEvent (.malformed seq) s = countMalformed seq s := by
  unfold takeFrameEvent
  rw [h]

theorem takeFrameEvent_malformed_up (h : s.flc.link = .up) (seq : Option (BitVec 16)) :
    takeFrameEvent (.malformed seq) s = raiseErrors (countMalformed seq s) := by
  unfold takeFrameEvent
  rw [h]

theorem takeFrameEvent_inSequence (h : s.flc.link = .up) (rs : List (List Byte)) :
    takeFrameEvent (.wellFormed s.flc.expected rs) s = takeInSequence s.flc.expected rs s := by
  unfold takeFrameEvent
  rw [h]
  exact if_pos rfl

theorem takeFrameEvent_outOfSequence (h : s.flc.link = .up) {seq : BitVec 16} (hseq : seq ≠ s.flc.expected)
    (rs : List (List Byte)) : takeFrameEvent (.wellFormed seq rs) s = takeOutOfSequence seq rs s := by
  unfold takeFrameEvent
  rw [h]
  exact if_neg hseq

theorem raiseErrors_below (h : s.flc.errCount + 1 < s.flc.faultLimit) (h255 : s.flc.faultLimit ≤ 255) :
    raiseErrors s = { s with flc := { s.flc with errCount := s.flc.errCount + 1 } } := by
  have hmin : min 255 (s.flc.errCount + 1) = s.flc.errCount + 1 := by omega
  unfold raiseErrors
  dsimp only
  rw [hmin]
  exact if_neg (by omega)

/-- A frame out of sequence, counted and offered (R5). -/
def countGap (seq : BitVec 16) (s : State) : State :=
  (countTaken seq (s.modLink fun c => { c with lost := sat32 (c.lost + (seq - s.flc.expected).toNat) })).offer .sequence seq 32

theorem takeOutOfSequence_below (seq : BitVec 16) (rs : List InRecord) (hup : s.flc.link = .up)
    (h : s.flc.errCount + 1 < s.flc.faultLimit) (h255 : s.flc.faultLimit ≤ 255) :
    takeOutOfSequence seq (rs.map recordBytes) s = State.handOn rs
      { countGap seq s with flc := { (countGap seq s).flc with errCount := s.flc.errCount + 1 } } := by
  have hraise := raiseErrors_below (s := countGap seq s) h h255
  have hlink : (raiseErrors (countGap seq s)).flc.link = .up := (congrArg (fun u => u.flc.link) hraise).trans hup
  refine (if_pos hlink).trans ((congrArg (examineRecords seq (rs.map recordBytes)) hraise).trans ?_)
  exact examineRecords_good seq rs 0 _

end

section
variable {s : State} (hrun : s.phase = .running) (hrx : s.flc.rx = .hunting) (hdown : s.flc.link ≠ .down)
  (hs : s.settled)
include hrun hrx hdown hs

theorem exec_wellFormed_settled {seq : BitVec 16} {records : List (List Byte)} (hlen : records.length ≤ 32)
    (h16 : ∀ r ∈ records, r.length = 16) {t : State}
    (ht : takeFrameEvent (.wellFormed seq records) (s.withRx .hunting) = t) :
    exec (.fabricFrameEvent (fabricFrame seq records)) s = .next (settle t) := by
  rw [exec_wellFormed hrun hrx hdown (.inl hs) hlen h16, settle_eq_of_settled hs, ht]

theorem exec_malformed_settled {syms : List LaneSym} {seq : Option (BitVec 16)} {rx : FabRx}
    (h : MalformedRun syms seq rx) {t : State} (ht : takeFrameEvent (.malformed seq) (s.withRx rx) = t) :
    exec (.fabricFrameEvent syms) s = .next (settle t) := by
  rw [exec_malformed hrun hrx hdown (.inl hs) h, settle_eq_of_settled hs, ht]

end

theorem next_settle_eq {t : State} (h : t.settled) :
    Host.Outcome.next (settle t) = (.next t : Host.Outcome State Fault Refusal) := congrArg _ (settle_eq_of_settled h)

theorem next_settle_eq_ctlPump {t : State} (h : t.laneSettled) :
    Host.Outcome.next (settle t) = (.next (ctlPump t) : Host.Outcome State Fault Refusal) :=
  congrArg _ (settle_eq_ctlPump h)

theorem Ern.offer_eq (e : Ern) (k : FaultKind) (seq : BitVec 16) (i : Nat) (time : BitVec 32) :
    e.offer k seq i time = { e with fault := (e.offer k seq i time).fault } := by
  unfold Ern.offer
  cases e.fault <;> rfl

theorem State.settled.offer {s : State} (h : s.settled) (k : FaultKind) (seq : BitVec 16) (i : Nat) (time : BitVec 32) :
    State.settled { s with ern := s.ern.offer k seq i time } := by
  obtain ⟨hlane, hline⟩ := h
  refine ⟨hlane, fun htx => ?_⟩
  show s.clc.replies = [] ∧ (s.ern.offer k seq i time).pendingSet = []
  rw [Ern.offer_eq]
  exact hline htx

theorem recordBytes_all (rs : List InRecord) : ∀ r ∈ rs.map recordBytes, r.length = 16 := fun r hr => by
  obtain ⟨x, _, rfl⟩ := List.mem_map.mp hr
  exact recordBytes_length x

end Sys2Proof.Machine

namespace Sys2Proof.Proofs

open Sys2Proof Sys2Proof.Machine

/-- Settles O23. -/
theorem framesAreTakenInUp : Obligations.FramesAreTakenInUp := by
  intro s rs hrun hs hup hrx hlen
  have hdown : s.flc.link ≠ .down := by rw [hup]; decide
  have hrs : (rs.map recordBytes).length ≤ 32 := by simpa using hlen
  refine ⟨?_, fun seq hseq hbelow hlimit => ?_, fun bad k more hbad hk hcount => ?_⟩
  · have hevent := (takeFrameEvent_inSequence (s := s.withRx .hunting) hup (rs.map recordBytes)).trans
      (examineRecords_good s.flc.expected rs 0 _)
    exact (exec_wellFormed_settled hrun hrx hdown hs hrs (recordBytes_all rs) hevent).trans (next_settle_eq hs)
  · have hevent := (takeFrameEvent_outOfSequence (s := s.withRx .hunting) hup hseq (rs.map recordBytes)).trans
      (takeOutOfSequence_below seq rs hup hbelow hlimit)
    exact (exec_wellFormed_settled hrun hrx hdown hs hrs (recordBytes_all rs) hevent).trans
      (next_settle_eq (hs.offer .sequence seq 32 s.stamp))
  · have hall : ∀ r ∈ rs.map recordBytes ++ bad :: more.map recordBytes, r.length = 16 := by
      rw [List.forall_mem_append, List.forall_mem_cons]
      exact ⟨recordBytes_all rs, hbad, recordBytes_all more⟩
    have hevent := (takeFrameEvent_inSequence (s := s.withRx .hunting) hup _).trans
      (examineRecords_bad s.flc.expected rs more hk _)
    exact (exec_wellFormed_settled hrun hrx hdown hs (by simp; omega) hall hevent).trans (next_settle_eq_ctlPump hs.1)

/-- Settles O24. -/
theorem firstFrameBringsLinkUp : Obligations.FirstFrameBringsLinkUp := by
  intro s rs seq hrun hs hlink hrx hlen
  have hdown : s.flc.link ≠ .down := by rw [hlink]; decide
  have hevent := (takeFrameEvent_syncing (s := s.withRx .hunting) hlink seq (rs.map recordBytes)).trans
    (examineRecords_good seq rs 0 _)
  refine (exec_wellFormed_settled hrun hrx hdown hs (by simpa using hlen) (recordBytes_all rs) hevent).trans
    (next_settle_eq_ctlPump fun htx _ => ?_)
  obtain ⟨hfifo, hidle, _⟩ := hs.1 htx hdown
  rw [hlink] at hidle
  exact ⟨hfifo, hidle, nofun⟩

/-- Settles O25. -/
theorem frameDiscardedUnread : Obligations.FrameDiscardedUnread := by
  refine fun s hrun hs => ⟨fun hlink hrx => ?_, fun syms hlink => ?_⟩
  · have hdown : s.flc.link ≠ .down := by rcases hlink with h | h <;> rw [h] <;> decide
    refine ⟨fun rs seq hlen h16 => ?_, fun syms seq rx h => ?_⟩
    · exact (exec_wellFormed_settled hrun hrx hdown hs hlen h16 (takeFrameEvent_discarded (s := s.withRx .hunting) _ hlink)).trans
        (next_settle_eq hs)
    · exact (exec_malformed_settled hrun hrx hdown hs h (takeFrameEvent_discarded (s := s.withRx rx) _ hlink)).trans
        (next_settle_eq hs)
  · have hfold : exec (.fabricFrameEvent syms) s = .next (syms.foldl (fun s x => settle (takeSymbol s x)) s) := if_pos hrun
    have hstay (x : LaneSym) : settle (takeSymbol s x) = s := by
      rw [takeSymbol, if_pos hlink, settle_eq_of_settled hs]
    rw [hfold]
    congr 1
    clear hfold
    induction syms with
    | nil => rfl
    | cons x syms ih => rw [List.foldl_cons, hstay, ih]

/-- Settles O26. -/
theorem malformedHeaderIsCounted : Obligations.MalformedHeaderIsCounted := by
  intro s syms seq rx h hrun hs hrx hlink
  have hsettled := hs.offer .malformed (seq.getD s.flc.expected) 32 s.stamp
  rcases hlink with hlink | ⟨hlink, hbelow, hlimit⟩
  · have hdown : s.flc.link ≠ .down := by rw [hlink]; decide
    rw [if_neg (by rw [hlink]; decide)]
    exact (exec_malformed_settled hrun hrx hdown hs h (takeFrameEvent_malformed_syncing (s := s.withRx rx) hlink seq)).trans
      (next_settle_eq hsettled)
  · have hdown : s.flc.link ≠ .down := by rw [hlink]; decide
    rw [if_pos hlink]
    have hevent := (takeFrameEvent_malformed_up (s := s.withRx rx) hlink seq).trans
      (raiseErrors_below (s := countMalformed seq (s.withRx rx)) hbelow hlimit)
    exact (exec_malformed_settled hrun hrx hdown hs h hevent).trans (next_settle_eq hsettled)

end Sys2Proof.Proofs
end

section
/-! SUPPORT. What the fabric transmitter begins, Gate Orders, a bind and a free, and entries that leave the table
(R11, R15, R16, R43, R49, R52, R142 to R148). -/

namespace Sys2Proof.Machine

/-! ### The fabric transmitter -/

section
variable {s : State} (htx : s.flc.tx = none)
include htx

theorem fabPump_orders (hdown : s.flc.link ≠ .down) (hfifo : s.gpm.fifo ≠ []) : fabPump s = beginOrderFrame s := by
  unfold fabPump
  rw [if_neg (by simp [htx, hdown]), if_pos hfifo]

theorem fabPump_idle (hlink : s.flc.link.sendsIdle = true) (hfifo : s.gpm.fifo = []) (hidle : s.flc.idle = .runOut) :
    fabPump s = beginFrame [] s := by
  have hdown : s.flc.link ≠ .down := fun h => by rw [h] at hlink; exact nomatch hlink
  unfold fabPump
  rw [if_neg (by simp [htx, hdown]), if_neg (not_not.mpr hfifo), if_pos ⟨hidle, hlink⟩]

theorem fabPump_down (hlink : s.flc.link = .stopping) (hfifo : s.gpm.fifo = []) : fabPump s = enterDown s := by
  unfold fabPump
  rw [if_neg (by simp [htx, hlink]), if_neg (not_not.mpr hfifo), if_neg (by simp [hlink, LinkState.sendsIdle]), if_pos hlink]

end

/-- With nothing to begin on the line, settling is the fabric transmitter's part. -/
theorem settle_of_lane {s t : State} (h : fabPump s = t) (ht : t.lineSettled) : settle s = t := by
  unfold settle
  rw [h, ctlPump_eq_of_lineSettled ht]

/-! ### Gate Orders (R147, R148) -/

theorem Gate.taken_taken (g : Gate) : g.taken.taken = g.taken := rfl

theorem Gpm.takeBatch_gate (m : Gpm) (g : GateNo) :
    m.takeBatch.gate g = if g ∈ m.fifo.take 32 then (m.gate g).taken else m.gate g := by
  have key (l : List GateNo) (u : Gpm) : (l.foldl (fun m g => m.modGate g Gate.taken) u).gate g =
      if g ∈ l then (u.gate g).taken else u.gate g := by
    induction l generalizing u with
    | nil => rfl
    | cons h l ih =>
      rw [List.foldl_cons, ih, Gpm.gate_modGate]
      by_cases hg : g = h
      · subst hg
        simp [Gate.taken_taken]
      · simp [hg]
  exact key m.batch m

/-- The fields of a Gate Order (Table 13-4). -/
def GateOrder.fields (o : GateOrder) : List (Nat × Nat) :=
  [(1, 0x81), (1, o.mode.code), (2, o.gate.val), (1, o.epoch.toNat), (1, o.addNumber.toNat), (1, o.res.code), (1, 0),
    (2, o.divisor), (3, o.add), (3, 0)]

theorem GateOrder.bytes_eq (o : GateOrder) : o.bytes = layout o.fields := by
  simp only [GateOrder.bytes, GateOrder.fields, layout, List.flatMap_cons, List.flatMap_nil, List.append_assoc,
    List.append_nil]

/-! ### Entries that leave the table -/

section
variable {s : State} {i : Slot} {e : Entry}

theorem Rtb.remove_of_entry {r : Rtb} (he : r.entry? i = some e) : r.remove i = { r with
    table := r.table.filter fun x => x.1 ≠ i, arrival := modAt r.arrival e.port fun l => l.erase i } := by
  unfold Rtb.remove
  rw [he]

theorem exec_flowEnd_taken {h : BitVec 32} {p : Port} {g : Option GateRef} {left : BitVec 24}
    (ht : TakesRecord s (.flowEnd h p g left)) : exec (.flowEnd h p g left) s =
      .next (settle (takeFlowEnd h p g left.toNat (s.withoutRecord (.flowEnd h p g left)))) := onEvent_arriveRecord _ ht

theorem takeFlowEnd_unknown {h : BitVec 32} {p : Port} (hl : s.rtb.lookup h p = none) (g : Option GateRef) (left : Nat) :
    takeFlowEnd h p g left s = (s.modRtbCtr fun c => { c with flowEnds := sat32 (c.flowEnds + 1) }).modRtbCtr fun c =>
      { c with unknownEnds := sat32 (c.unknownEnds + 1) } := by
  unfold takeFlowEnd
  have : (s.modRtbCtr fun c => { c with flowEnds := sat32 (c.flowEnds + 1) }).rtb.lookup h p = none := hl
  dsimp only
  rw [this]

theorem takeFlowEnd_known {h : BitVec 32} {p : Port} (hl : s.rtb.lookup h p = some (i, e)) (g : Option GateRef)
    (left : Nat) : takeFlowEnd h p g left s =
      endEntry i e g left (s.modRtbCtr fun c => { c with flowEnds := sat32 (c.flowEnds + 1) }) := by
  unfold takeFlowEnd
  have : (s.modRtbCtr fun c => { c with flowEnds := sat32 (c.flowEnds + 1) }).rtb.lookup h p = some (i, e) := hl
  dsimp only
  rw [this]

/-- An entry without a gate and outside an episode ends by leaving the table (R53). -/
theorem endEntry_bare (hg : e.gate = none) (hst : e.state = .seen ∨ e.state = .bypassed ∨ e.state = .ungated)
    (g : Option GateRef) (left : Nat) : endEntry i e g left s = s.removeEntry i := by
  have hno : gateMismatch none g = false := rfl
  unfold endEntry
  rw [hg, hno]
  rcases hst with h | h | h <;> rw [h] <;> rfl

theorem State.matured_of_entry (he : s.rtb.entry? i = some e) :
    s.matured i = (e.state.ages && decide (s.rtb.ageLimit ≤ e.age s.now)) := by
  unfold State.matured
  rw [he]

end

end Sys2Proof.Machine

namespace Sys2Proof.Proofs

open Sys2Proof Sys2Proof.Machine

/-- Settles O28. -/
theorem idleFrameIsSent : Obligations.IdleFrameIsSent := by
  intro s start hrun hs hidle
  have hexec : exec .idleIntervalExpiry s = .next (settle (idleEvent s)) := if_pos hrun
  have hevent : idleEvent s = if start + 100 ≤ s.now then { s with flc := { s.flc with idle := .runOut } } else s := by
    unfold idleEvent
    rw [hidle]
  rw [hexec, hevent]
  refine ⟨fun hdue htx hlink => ?_, fun hearly => ?_, fun hdue hlink => ?_⟩
  · have hdown : s.flc.link ≠ .down := fun h => by rw [h] at hlink; exact nomatch hlink
    rw [if_pos hdue]
    exact congrArg _ (settle_of_lane (fabPump_idle (s := { s with flc := { s.flc with idle := .runOut } }) htx hlink
      (hs.1 htx hdown).1 rfl) hs.2)
  · rw [if_neg (by omega), settle_eq_of_settled hs]
  · rw [if_pos hdue]
    refine next_settle_eq ⟨fun htx hdown => ?_, hs.2⟩
    exact absurd hlink (hs.1 htx hdown).2.2

/-- Settles O29. -/
theorem freeLaneSendsOrders : Obligations.FreeLaneSendsOrders := by
  intro s hrun hline hdown
  have hexec : exec .fabricTransmitComplete s = .next (settle (laneFree s)) := if_pos hrun
  rw [hexec]
  refine ⟨fun hfifo => ?_, fun hfifo hidle hlink => ?_, fun hfifo hidle hlink => ?_, fun hfifo hlink => ?_⟩
  · have hcount : s.gpm.orders.length = min 32 s.gpm.fifo.length := by simp [Gpm.orders, Gpm.batch]
    have hbytes : s.gpm.orders.map GateOrder.bytes = (s.gpm.fifo.take 32).map fun g => ((s.gpm.gate g).order g).bytes :=
      List.map_map
    rw [← hcount, ← hbytes]
    exact congrArg _ (settle_of_lane (fabPump_orders (s := laneFree s) rfl hdown hfifo) hline)
  · exact congrArg _ (settle_of_lane (fabPump_idle (s := laneFree s) rfl hlink hfifo hidle) hline)
  · exact next_settle_eq ⟨fun _ _ => ⟨hfifo, fun h => hidle h.1, hlink⟩, hline⟩
  · exact congrArg _ (congrArg ctlPump (fabPump_down (s := laneFree s) rfl hlink hfifo))

/-- Settles O30. -/
theorem ordersCarryTheRecord : Obligations.OrdersCarryTheRecord := by
  refine fun m _ => ⟨rfl, m.takeBatch_free, fun g hg => ?_, fun g hg => ?_, fun g hdivisor hadd => ?_⟩
  · rw [Gpm.takeBatch_gate, if_neg hg]
  · rw [Gpm.takeBatch_gate, if_pos hg]
    rfl
  · have hlaid : Laid ((m.gate g).order g).bytes (placedFrom 0 ((m.gate g).order g).fields) :=
      laid_of_layout (rest := []) (by rw [GateOrder.bytes_eq, List.append_nil]) rfl
    simp only [Laid, GateOrder.fields, placedFrom, List.forall_mem_cons, Gate.order, Gate.taken] at hlaid
    obtain ⟨hkind, hmode, hgate, hepoch, hnumber, hres, hzero, hdiv, hsum, hlast, _⟩ := hlaid
    have hepochLt := (m.gate g).epoch.isLt
    have hmodeLt : (m.gate g).mode.code < 256 := by cases (m.gate g).mode <;> decide
    have hresLt : (m.gate g).res.code < 256 := by cases (m.gate g).res <;> decide
    refine ⟨?_, hkind, hmode.trans (Nat.mod_eq_of_lt hmodeLt), hgate.trans (Nat.mod_eq_of_lt (by omega)),
      hepoch.trans (Nat.mod_eq_of_lt (by omega)), hnumber.trans (Nat.mod_eq_of_lt (BitVec.isLt _)),
      hres.trans (Nat.mod_eq_of_lt hresLt), hzero, hdiv.trans (Nat.mod_eq_of_lt (by omega)),
      hsum.trans (Nat.mod_eq_of_lt (by omega)), hlast⟩
    rw [GateOrder.bytes_eq, layout_length]
    rfl

/-- Settles O37. -/
theorem flowEndWithoutGate : Obligations.FlowEndWithoutGate := by
  intro s h p g left ht hs
  refine ⟨fun hl => ?_, fun i e hr hl hg hst => ?_⟩
  · rw [exec_flowEnd_taken ht, takeFlowEnd_unknown (s := s.withoutRecord _) hl]
    exact next_settle_eq hs
  · obtain ⟨he, _, hp⟩ := Rtb.lookup_some hr.slots_rise hl
    rw [exec_flowEnd_taken ht, takeFlowEnd_known (s := s.withoutRecord _) hl, endEntry_bare hg hst, State.removeEntry,
      Rtb.remove_of_entry (e := e) (by exact he), hp]
    exact next_settle_eq hs

/-- Settles O39. -/
theorem agingRemovesMatured : Obligations.AgingRemovesMatured := by
  intro s i e hrun hs he hlimit
  have hexec : exec (.agingEvent i) s = .next (settle (ageOut i s)) := if_pos hrun
  rw [hexec]
  refine ⟨fun hst hage => ?_, fun hno => ?_⟩
  · have hmatured : s.matured i = true := by
      have hages : e.state.ages = true := by rcases hst with h | h | h <;> rw [h] <;> rfl
      rw [State.matured_of_entry he, hages, Bool.true_and, decide_eq_true_eq, Entry.age]
      omega
    rw [ageOut, if_pos hmatured, State.removeEntry, Rtb.remove_of_entry he]
    exact next_settle_eq hs
  · have hmatured : ¬s.matured i = true := by
      rw [State.matured_of_entry he, Bool.and_eq_true, decide_eq_true_eq, Entry.age]
      rintro ⟨hages, hage⟩
      rcases hno with h | h | h | h
      · rw [h] at hages; exact nomatch hages
      · rw [h] at hages; exact nomatch hages
      · rw [h] at hages; exact nomatch hages
      · omega
    rw [ageOut, if_neg hmatured, settle_eq_of_settled hs]

/-- Settles O40. -/
theorem gatesAreLentFromTheHead : Obligations.GatesAreLentFromTheHead := by
  refine ⟨fun s i e mode res he => ⟨fun hf => bindGate_of_no_free i mode res hf, fun g rest hf =>
    ⟨_, bindGate_of_free mode res hf he, ?_, fun g' hg => ?_, Gpm.bind_free .., Gpm.bind_fifo .., ?_, ?_, fun j hj => ?_,
      rfl⟩⟩, fun s i e r k he hr hk => ?_⟩
  · exact (Gpm.bind_gate ..).trans (if_pos rfl)
  · exact (Gpm.bind_gate ..).trans (if_neg hg)
  · exact (Gpm.enter_keeps _ _).2.2.1
  · exact (Rtb.entry?_modEntry_self ..).trans (by rw [he]; rfl)
  · exact Rtb.entry?_modEntry_ne _ _ hj
  · have hb : (s.gpm.gate r.gate).bound ≠ none := by rw [hk]; nofun
    have hfree := freeGateOf_of_gate he hr
    obtain ⟨hlist, hfifo, hfrees⟩ := Gpm.freeGate_lists hb
    have hentry : (freeGateOf i s).rtb.entry? i = some { e with gate := none } := by
      rw [hfree]
      exact (Rtb.entry?_modEntry_self ..).trans (by rw [he]; rfl)
    have hgpm : (freeGateOf i s).gpm = s.gpm.freeGate r.gate := congrArg State.gpm hfree
    refine ⟨?_, fun g' hg => ?_, ?_, ?_, ?_, hentry, ?_, freeGateOf_of_no_gate hentry rfl⟩
    · rw [hgpm, Gpm.freeGate_gate hb, if_pos rfl]
      rfl
    · rw [hgpm, Gpm.freeGate_gate hb, if_neg hg]
    · rw [hgpm, hlist]
    · rw [hgpm, hfifo]
    · rw [hgpm, hfrees]
    · rw [freeGateOf_rest]

end Sys2Proof.Proofs
end

section
/-! SUPPORT. Reports at the Occupancy Evaluator and what they do to a port, expiries of ports without an episode, and
the checks of gate reports (R21, R25 to R31, R90 to R97, R100, R104, R119, R134, R136, R150 to R152). -/

namespace Sys2Proof.Machine

/-! ### Timers that do not run (Table 6-3) -/

theorem Timer.stopped_of_inactive {t : Timer} (h : t.active ≠ true) : t = .stopped := by
  cases t with
  | stopped => rfl
  | running _ _ => exact absurd rfl h
  | frozen _ _ => exact absurd rfl h

theorem Timer.due_of_running {t : Timer} {now a b : Nat} (h : t = .running a b) (hab : a + b ≤ now) :
    t.due now = true := by
  subst h
  exact decide_eq_true hab

theorem Timer.not_due {t : Timer} {now : Nat} (h : ∀ a b, t = .running a b → now < a + b) : t.due now = false := by
  cases t with
  | stopped => rfl
  | running a b => exact decide_eq_false (Nat.not_le_of_lt (h a b rfl))
  | frozen _ _ => rfl

section
variable {q : PrcPort} (h : q.timersOk)
include h

theorem PrcPort.timersOk.debounce_stopped (hst : q.state ≠ .watch) : q.debounce = .stopped :=
  Timer.stopped_of_inactive fun hact => hst (h.1 hact)

theorem PrcPort.timersOk.stale_stopped (hst : q.state.runsStale = false) : q.stale = .stopped :=
  Timer.stopped_of_inactive fun hact => by rw [h.2.1.mp hact] at hst; exact nomatch hst

theorem PrcPort.timersOk.guard_stopped (hst : q.state.runsGuard = false) : q.guard = .stopped := by
  obtain ⟨_, _, hguard, _⟩ := h
  exact Timer.stopped_of_inactive fun hact => by rw [hguard hact] at hst; exact nomatch hst

theorem PrcPort.timersOk.drain_stopped (hst : q.state ≠ .drain) : q.drain = .stopped := by
  obtain ⟨_, _, _, _, _, hdrain, _⟩ := h
  exact Timer.stopped_of_inactive fun hact => hst (hdrain.mp hact)

theorem PrcPort.timersOk.cooldown_stopped (hst : q.state ≠ .cooldown) : q.cooldown = .stopped := by
  obtain ⟨_, _, _, _, _, _, hcooldown, _⟩ := h
  exact Timer.stopped_of_inactive fun hact => hst (hcooldown.mp hact)

theorem PrcPort.timersOk.not_qualified (hst : q.state ≠ .watch) : q.qualified = false := by
  obtain ⟨_, _, _, _, _, _, _, hqualified, _⟩ := h
  exact Bool.eq_false_iff.mpr fun hq => hst (hqualified hq)

/-- IDLE left for WATCH (R90). -/
theorem PrcPort.timersOk.watch_of_idle (hst : q.state = .idle) (debounce stale : Timer) :
    { q.enter .watch with qualified := false, debounce := debounce, stale := stale } =
      { q with state := .watch, debounce := debounce, stale := stale } := by
  have hqual := h.not_qualified (by rw [hst]; nofun)
  have hguard := h.guard_stopped (by rw [hst]; rfl)
  have hdrain := h.drain_stopped (by rw [hst]; nofun)
  have hcooldown := h.cooldown_stopped (by rw [hst]; nofun)
  simp [PrcPort.enter, Timer.keptIf, hqual, hguard, hdrain, hcooldown]

/-- WATCH left for IDLE, whatever the stale timer has become (R91, R94). -/
theorem PrcPort.timersOk.idle_of_watch (hst : q.state = .watch) (stale : Timer) :
    PrcPort.enter .idle { q with stale := stale } =
      { q with state := .idle, qualified := false, debounce := .stopped, stale := .stopped } := by
  have hguard := h.guard_stopped (by rw [hst]; rfl)
  have hdrain := h.drain_stopped (by rw [hst]; nofun)
  have hcooldown := h.cooldown_stopped (by rw [hst]; nofun)
  rw [PrcPort.enter_idle]
  simp [hguard, hdrain, hcooldown]

/-- COOLDOWN left for IDLE (R104). -/
theorem PrcPort.timersOk.idle_of_cooldown (hst : q.state = .cooldown) :
    q.enter .idle = { q with state := .idle, cooldown := .stopped } := by
  have hqual := h.not_qualified (by rw [hst]; nofun)
  have hdebounce := h.debounce_stopped (by rw [hst]; nofun)
  have hstale := h.stale_stopped (by rw [hst]; rfl)
  have hguard := h.guard_stopped (by rw [hst]; rfl)
  have hdrain := h.drain_stopped (by rw [hst]; nofun)
  rw [PrcPort.enter_idle]
  simp [hqual, hdebounce, hstale, hguard, hdrain]

end

/-! ### Opening -/

section
variable {s : State} {p : Port}

theorem openingHolds_iff : s.openingHolds p = true ↔ (s.prcAt p).state = .watch ∧ (s.prcAt p).qualified = true ∧
    (s.prcAt p).config.fanIn ≤ s.fanIn p ∧ s.pgs.programs[(s.prcAt p).config.program] ≠ [] := by
  simp [State.openingHolds, and_assoc]

theorem checkOpening_of_not (h : (s.prcAt p).qualified = false ∨ s.fanIn p < (s.prcAt p).config.fanIn ∨
    s.pgs.programs[(s.prcAt p).config.program] = []) : checkOpening p s = s := by
  unfold checkOpening
  refine if_neg fun hopen => ?_
  obtain ⟨_, hqual, hfan, hprog⟩ := openingHolds_iff.mp hopen
  rcases h with h | h | h
  · rw [h] at hqual
    exact nomatch hqual
  · omega
  · exact hprog h

/-! ### Reports taken (R25 to R31) -/

variable {seq cells : BitVec 16} {d : BitVec 32}

theorem exec_occupancy_taken (ht : TakesRecord s (.occupancy p seq cells d)) : exec (.occupancyReport p seq cells d) s =
    .next (settle (takeReport p seq cells d (s.withoutRecord (.occupancy p seq cells d)))) := onEvent_arriveRecord _ ht

theorem takeReport_stale (h : ¬(s.oevAt p).accepts seq) :
    takeReport p seq cells d s = s.modOev p fun o => { o with stale := sat32 (o.stale + 1) } := by
  have hbase : (s.oevAt p).baseline ≠ false := fun hb => h (.inl hb)
  have hgap : ¬(1 ≤ seqGap (s.oevAt p) seq ∧ seqGap (s.oevAt p) seq ≤ 32767) := fun hg => h (.inr hg)
  unfold takeReport
  dsimp only
  rw [if_neg hbase, if_neg hgap]

theorem takeReport_accepted (h : (s.oevAt p).accepts seq) : takeReport p seq cells d s =
    reportToPrc p (levelOf s.oev.sets[(s.prcAt p).config.levelSet] cells.toNat) ((s.oevAt p).deltaOf d)
      (s.afterReport p seq cells d) := by
  have hoev (delta : Nat) (hdelta : delta = if (s.oevAt p).baseline then (d - (s.oevAt p).lastDrained).toNat else 0) :
      acceptReport p seq cells d delta s = reportToPrc p
        (levelOf s.oev.sets[(s.prcAt p).config.levelSet] cells.toNat) ((s.oevAt p).deltaOf d)
        (s.afterReport p seq cells d) := by
    have hmin : min delta maxA = (s.oevAt p).deltaOf d := by
      rw [hdelta, OevPort.deltaOf]
      split
      · exact Nat.min_comm ..
      · rfl
    unfold acceptReport State.afterReport
    dsimp only
    rw [hmin]
    refine congrArg (reportToPrc p _ _) (State.modOev_congr s p _ _ ?_)
    have hclamp : decide (maxA < delta) =
        decide ((s.oevAt p).baseline = true ∧ 16777215 < (d - (s.oevAt p).lastDrained).toNat) := by
      rw [hdelta]
      split
      · next hb => rw [hb, decide_eq_decide]; exact (and_iff_right rfl).symm
      · next hb => simp [hb, maxA]
    rw [hclamp]
    simp only [OevPort.accept, decide_eq_true_eq]
    rfl
  unfold takeReport
  dsimp only
  split
  · next hb => exact hoev 0 (by rw [hb]; rfl)
  · next hb =>
    have hbase : (s.oevAt p).baseline = true := Bool.eq_true_of_not_eq_false hb
    have hgap : 1 ≤ seqGap (s.oevAt p) seq ∧ seqGap (s.oevAt p) seq ≤ 32767 := h.resolve_left hb
    rw [if_pos hgap]
    exact hoev _ (by rw [hbase]; rfl)

theorem exec_report_stale (ht : TakesRecord s (.occupancy p seq cells d)) (hs : s.settled) (h : ¬(s.oevAt p).accepts seq) :
    exec (.occupancyReport p seq cells d) s = .next ((s.withoutRecord (.occupancy p seq cells d)).modOev p fun o =>
      { o with stale := sat32 (o.stale + 1) }) := by
  rw [exec_occupancy_taken ht, takeReport_stale (s := s.withoutRecord _) h]
  exact next_settle_eq hs

/-- An accepted report, up to what the port makes of it. -/
theorem exec_report_accepted (ht : TakesRecord s (.occupancy p seq cells d)) (h : (s.oevAt p).accepts seq) {t : State}
    (hprc : reportToPrc p (levelOf s.oev.sets[(s.prcAt p).config.levelSet] cells.toNat) ((s.oevAt p).deltaOf d)
      ((s.withoutRecord (.occupancy p seq cells d)).afterReport p seq cells d) = t) :
    exec (.occupancyReport p seq cells d) s = .next (settle t) := by
  rw [exec_occupancy_taken ht, takeReport_accepted (s := s.withoutRecord _) h, ← hprc]
  rfl

end

/-! ### What a port makes of an accepted report -/

section
variable {s : State} {p : Port} (level delta : Nat)

theorem reportToPrc_resting (h : (s.prcAt p).state = .disarmed ∨ (s.prcAt p).state = .cooldown) :
    reportToPrc p level delta s = s := by
  unfold reportToPrc
  rcases h with h | h <;> simp only [h]

theorem reportToPrc_paused (h : (s.prcAt p).state = .paused) : reportToPrc p level delta s = restartStale p s := by
  unfold reportToPrc
  simp only [h]

theorem reportToPrc_drain (h : (s.prcAt p).state = .drain) : reportToPrc p level delta s =
    if level ≤ (s.prcAt p).config.ld then endEpisode p .completed (restartStale p s) else restartStale p s := by
  unfold reportToPrc
  simp only [h]

theorem reportToPrc_relief (h : (s.prcAt p).state = .relief) :
    reportToPrc p level delta s = reportStages p level delta (restartStale p s) := by
  unfold reportToPrc
  simp only [h]

theorem reportToPrc_watch (h : (s.prcAt p).state = .watch) : reportToPrc p level delta s =
    if level < (s.prcAt p).config.lw then (restartStale p s).enterPort p .idle else checkOpening p (restartStale p s) := by
  unfold reportToPrc
  simp only [h]

theorem enterIdle_of_watch (h : (s.prcAt p).state = .watch) (hok : (s.prcAt p).timersOk) (f : PrcPort → Timer) :
    (s.modPrc p fun q => { q with stale := f q }).enterPort p .idle = s.modPrc p fun q => { q with
      state := .idle, qualified := false, debounce := .stopped, stale := .stopped } := by
  rw [State.enterPort, State.modPrc_modPrc]
  exact State.modPrc_congr s p _ _ (hok.idle_of_watch h _)

theorem enterIdle_of_cooldown (h : (s.prcAt p).state = .cooldown) (hok : (s.prcAt p).timersOk) :
    s.enterPort p .idle = s.modPrc p fun q => { q with state := .idle, cooldown := .stopped } :=
  State.modPrc_congr s p _ _ (hok.idle_of_cooldown h)

theorem reportToPrc_watch_low (h : (s.prcAt p).state = .watch) (hok : (s.prcAt p).timersOk)
    (hlw : level < (s.prcAt p).config.lw) : reportToPrc p level delta s = s.modPrc p fun q => { q with
      state := .idle, qualified := false, debounce := .stopped, stale := .stopped } := by
  rw [reportToPrc_watch level delta h, if_pos hlw, restartStale, enterIdle_of_watch h hok]

theorem reportToPrc_watch_stays (h : (s.prcAt p).state = .watch) (hlw : (s.prcAt p).config.lw ≤ level)
    (hno : (s.prcAt p).qualified = false ∨ s.fanIn p < (s.prcAt p).config.fanIn ∨
      s.pgs.programs[(s.prcAt p).config.program] = []) : reportToPrc p level delta s = restartStale p s := by
  rw [reportToPrc_watch level delta h, if_neg (Nat.not_lt_of_le hlw), checkOpening_of_not]
  simp only [restartStale, State.prcAt_modPrc_self]
  exact hno

theorem reportToPrc_idle (h : (s.prcAt p).state = .idle) (hok : (s.prcAt p).timersOk) : reportToPrc p level delta s =
    if (s.prcAt p).config.lw ≤ level then s.modPrc p fun q => { q with
      state := .watch, debounce := .running s.now (s.prcAt p).config.td, stale := .running s.now (s.prcAt p).config.ts }
    else s := by
  have hwatch : (s.enterPort p .watch).modPrc p (fun x => { x with
      qualified := false, debounce := .startAt s.now x.config.td, stale := .startAt s.now x.config.ts }) =
      s.modPrc p fun q => { q with state := .watch, debounce := .running s.now (s.prcAt p).config.td
                                   stale := .running s.now (s.prcAt p).config.ts } := by
    rw [State.enterPort, State.modPrc_modPrc]
    exact State.modPrc_congr s p _ _ (hok.watch_of_idle h _ _)
  rw [← hwatch]
  unfold reportToPrc
  simp only [h]

end

/-! ### Gate reports (R134, R136, R150 to R152) -/

section
variable {s : State} {g : GateNo} {ep : BitVec 4} {h : BitVec 32} {k : Key} {i : Slot} {e : Entry}

theorem exec_holdPressure_taken {held : BitVec 24} (ht : TakesRecord s (.holdPressure g ep h held)) :
    exec (.holdPressure g ep h held) s =
      .next (settle (takeHoldPressure g ep h held (s.withoutRecord (.holdPressure g ep h held)))) := onEvent_arriveRecord _ ht

theorem exec_gateSpent_taken {echo : BitVec 8} (ht : TakesRecord s (.gateSpent g ep echo h)) :
    exec (.gateSpent g ep echo h) s =
      .next (settle (takeGateSpent g ep echo h (s.withoutRecord (.gateSpent g ep echo h)))) := onEvent_arriveRecord _ ht

theorem Gpm.common_iff {m : Gpm} : m.common g ep h = true ↔
    ∃ k, (m.gate g).bound = some k ∧ (m.gate g).epoch = ep ∧ k.hash = h := by
  unfold Gpm.common
  cases (m.gate g).bound with
  | none => simp
  | some k => simp

theorem Gpm.not_common {m : Gpm} (hno : (m.gate g).bound = none ∨ (∃ k, (m.gate g).bound = some k ∧ k.hash ≠ h) ∨
    (m.gate g).epoch ≠ ep) : m.common g ep h = false := by
  refine Bool.eq_false_iff.mpr fun hc => ?_
  obtain ⟨k, hk, hep, hh⟩ := Gpm.common_iff.mp hc
  rcases hno with hb | ⟨k', hk', hne⟩ | hne
  · rw [hk] at hb
    exact nomatch hb
  · rw [hk, Option.some.injEq] at hk'
    subst hk'
    exact hne hh
  · exact hne hep

theorem takeHoldPressure_stale {held : BitVec 24} (hc : s.gpm.common g ep h = false) :
    takeHoldPressure g ep h held s = countStale s := by
  unfold takeHoldPressure
  rw [hc]
  rfl

theorem takeGateSpent_stale {echo : BitVec 8} (hc : s.gpm.spentValid g ep echo h = false) :
    takeGateSpent g ep echo h s = countStale s := by
  unfold takeGateSpent
  rw [hc]
  rfl

section
variable (hk : (s.gpm.gate g).bound = some k) (hl : s.rtb.lookup h k.port = some (i, e))
  (hh : k.hash = h)
include hk hl hh

theorem boundSlot_of_lookup : s.boundSlot g = some i := by
  unfold State.boundSlot
  rw [hk, Option.bind_some, hh, hl]
  rfl

variable (hep : (s.gpm.gate g).epoch = ep)
include hep

/-- A valid Hold Pressure reaches the entry its gate is bound to. -/
theorem takeHoldPressure_valid {held : BitVec 24} : takeHoldPressure g ep h held s =
    holdPressureOn i held { s with gpm := { s.gpm with validHold := sat32 (s.gpm.validHold + 1) } } := by
  have hslot := boundSlot_of_lookup hk hl hh
  unfold takeHoldPressure
  rw [if_pos (Gpm.common_iff.mpr ⟨k, hk, hep, hh⟩)]
  dsimp only
  rw [hslot]

/-- A valid Gate Spent reaches the entry its gate is bound to. -/
theorem takeGateSpent_valid {echo : BitVec 8} (hecho : (s.gpm.gate g).lastAdd = echo)
    (hadd : (s.gpm.gate g).pendingAdd = 0) : takeGateSpent g ep echo h s =
      markDry i { s with gpm := { s.gpm with validSpent := sat32 (s.gpm.validSpent + 1) } } := by
  have hslot := boundSlot_of_lookup hk hl hh
  have hvalid : s.gpm.spentValid g ep echo h = true := by
    unfold Gpm.spentValid
    rw [Gpm.common_iff.mpr ⟨k, hk, hep, hh⟩, hecho, hadd]
    simp
  unfold takeGateSpent
  rw [if_pos hvalid]
  dsimp only
  rw [hslot]

end

theorem Gpm.not_spentValid {m : Gpm} {echo : BitVec 8} (hno : (m.gate g).bound = none ∨
    (∃ k, (m.gate g).bound = some k ∧ k.hash ≠ h) ∨ (m.gate g).epoch ≠ ep ∨ (m.gate g).lastAdd ≠ echo ∨
    (m.gate g).pendingAdd ≠ 0) : m.spentValid g ep echo h = false := by
  unfold Gpm.spentValid
  rcases hno with hb | hb | hb | hb | hb
  · rw [Gpm.not_common (.inl hb)]; rfl
  · rw [Gpm.not_common (.inr (.inl hb))]; rfl
  · rw [Gpm.not_common (.inr (.inr hb))]; rfl
  · simp [hb]
  · simp [hb]

theorem holdPressureOn_ignored {held : BitVec 24} (he : s.rtb.entry? i = some e) (hst : e.state ≠ .waiting) :
    holdPressureOn i held s = { s.modEntry i fun x => { x with lastHeld := some held } with
      adu := { s.adu with ignored := sat32 (s.adu.ignored + 1) } } := by
  unfold holdPressureOn
  rw [he]
  exact if_neg hst

theorem markDry_admitted (he : s.rtb.entry? i = some e) (hst : e.state = .admitted) :
    markDry i s = s.modEntry i fun x => { x with dry := some true } := by
  unfold markDry
  rw [he]
  exact if_pos hst

theorem markDry_stale (he : s.rtb.entry? i = some e) (hst : e.state ≠ .admitted) : markDry i s = countStale s := by
  unfold markDry
  rw [he]
  exact if_neg hst

end

end Sys2Proof.Machine

namespace Sys2Proof.Proofs

open Sys2Proof Sys2Proof.Machine

/-- Settles O31. -/
theorem reportUpdatesOccupancy : Obligations.ReportUpdatesOccupancy := by
  refine ⟨levelOf_spec, fun s p seq cells d ht hs hst => ?_, fun s p seq cells d ht hs => ⟨exec_report_stale ht hs,
    fun hacc hst => ?_⟩⟩
  · have hgap : (seq.toNat + 65536 - (s.oevAt p).lastSeq.toNat) % 65536 = (seq - (s.oevAt p).lastSeq).toNat := by
      rw [BitVec.toNat_sub]
      have := (s.oevAt p).lastSeq.isLt
      omega
    have hdelta : (d.toNat + 4294967296 - (s.oevAt p).lastDrained.toNat) % 4294967296 =
        (d - (s.oevAt p).lastDrained).toNat := by
      rw [BitVec.toNat_sub]
      have := (s.oevAt p).lastDrained.isLt
      omega
    dsimp only
    rw [hgap, hdelta]
    by_cases hacc : (s.oevAt p).accepts seq
    · rw [if_pos hacc, exec_report_accepted ht hacc (reportToPrc_resting
        (s := (s.withoutRecord (.occupancy p seq cells d)).afterReport p seq cells d) _ _ hst)]
      exact next_settle_eq hs
    · rw [if_neg hacc, exec_report_stale ht hs hacc]
      exact congrArg _ (State.modOev_congr _ _ _ _ rfl)
  · rcases hst with hst | ⟨hst, hld⟩
    · rw [exec_report_accepted ht hacc (reportToPrc_paused
        (s := (s.withoutRecord (.occupancy p seq cells d)).afterReport p seq cells d) _ _ hst)]
      exact next_settle_eq hs
    · rw [exec_report_accepted ht hacc ((reportToPrc_drain
        (s := (s.withoutRecord (.occupancy p seq cells d)).afterReport p seq cells d) _ _ hst).trans
        (if_neg (Nat.not_le_of_lt hld)))]
      exact next_settle_eq hs

/-- Settles O32. -/
theorem reportsMoveIdleAndWatch : Obligations.ReportsMoveIdleAndWatch := by
  intro s p seq cells d ht hs hok hacc
  refine ⟨fun hst hlw => ?_, fun hst hlw => ?_, fun hst hlw => ?_, fun hst hlw hno => ?_⟩
  · rw [exec_report_accepted ht hacc ((reportToPrc_idle
      (s := (s.withoutRecord (.occupancy p seq cells d)).afterReport p seq cells d) _ _ hst hok).trans (if_pos hlw))]
    exact next_settle_eq hs
  · rw [exec_report_accepted ht hacc ((reportToPrc_idle
      (s := (s.withoutRecord (.occupancy p seq cells d)).afterReport p seq cells d) _ _ hst hok).trans (if_neg (Nat.not_le_of_lt hlw)))]
    exact next_settle_eq hs
  · rw [exec_report_accepted ht hacc (reportToPrc_watch_low
      (s := (s.withoutRecord (.occupancy p seq cells d)).afterReport p seq cells d) _ _ hst hok hlw)]
    exact next_settle_eq hs
  · rw [exec_report_accepted ht hacc (reportToPrc_watch_stays
      (s := (s.withoutRecord (.occupancy p seq cells d)).afterReport p seq cells d) _ _ hst hlw hno)]
    exact next_settle_eq hs

/-- Settles O41. -/
theorem gateReportsAreChecked : Obligations.GateReportsAreChecked := by
  refine ⟨fun s g ep h held ht hs => ⟨fun hno => ?_, fun k i e hk hh hep hl hr hst => ?_⟩, fun s g ep echo h ht hs =>
    ⟨fun k i e hk hh hep hecho hadd hl hr hst => ?_, fun k i e hk hh hep hecho hadd hl hr hst => ?_, fun hno => ?_⟩⟩
  · rw [exec_holdPressure_taken ht, takeHoldPressure_stale (s := s.withoutRecord _) (Gpm.not_common hno)]
    exact next_settle_eq hs
  · obtain ⟨he, _⟩ := Rtb.lookup_some hr.slots_rise hl
    rw [exec_holdPressure_taken ht, takeHoldPressure_valid (s := s.withoutRecord _) hk hl hh hep,
      holdPressureOn_ignored (e := e) (by exact he) (by rcases hst with h | h <;> rw [h] <;> nofun)]
    exact next_settle_eq hs
  · obtain ⟨he, _⟩ := Rtb.lookup_some hr.slots_rise hl
    rw [exec_gateSpent_taken ht, takeGateSpent_valid (s := s.withoutRecord _) hk hl hh hep hecho hadd,
      markDry_admitted (e := e) (by exact he) hst]
    exact next_settle_eq hs
  · obtain ⟨he, _⟩ := Rtb.lookup_some hr.slots_rise hl
    rw [exec_gateSpent_taken ht, takeGateSpent_valid (s := s.withoutRecord _) hk hl hh hep hecho hadd,
      markDry_stale (e := e) (by exact he) (by rcases hst with h | h <;> rw [h] <;> nofun)]
    exact next_settle_eq hs
  · rw [exec_gateSpent_taken ht, takeGateSpent_stale (s := s.withoutRecord _) (Gpm.not_spentValid hno)]
    exact next_settle_eq hs

/-- Settles O44. -/
theorem timersMoveThePort : Obligations.TimersMoveThePort := by
  intro s p hrun hs hok
  have hdebounce : exec (.debounceExpiry p) s = .next (settle (debounceEvent p s)) := if_pos hrun
  have hstale : exec (.staleExpiry p) s = .next (settle (staleEvent p s)) := if_pos hrun
  have hguard : exec (.guardExpiry p) s = .next (settle (guardEvent p s)) := if_pos hrun
  have hdrain : exec (.drainExpiry p) s = .next (settle (drainEvent p s)) := if_pos hrun
  have hcooldown : exec (.cooldownExpiry p) s = .next (settle (cooldownEvent p s)) := if_pos hrun
  refine ⟨fun a b hst htimer hdue hno => ?_, fun a b hst htimer hdue => ?_, fun a b hst htimer hdue => ?_, fun hno => ?_,
    fun hno => ?_, fun hno => ?_, fun hno => ?_, fun hno => ?_⟩
  · have hfires : s.debounceDue p = true := by
      rw [State.debounceDue, hst, Timer.due_of_running htimer hdue]
      rfl
    rw [hdebounce, debounceEvent, if_pos hfires, checkOpening_of_not ?_]
    · exact next_settle_eq hs
    · simp only [State.prcAt_modPrc_self]
      exact .inr hno
  · have hfires : s.staleDue p = true := by
      rw [State.staleDue, hst, Timer.due_of_running htimer hdue]
      rfl
    rw [hstale, staleEvent, if_pos hfires]
    dsimp only
    rw [if_pos hst, enterIdle_of_watch hst hok fun _ => .stopped]
    exact next_settle_eq hs
  · have hfires : s.cooldownDue p = true := by
      rw [State.cooldownDue, hst, Timer.due_of_running htimer hdue]
      rfl
    rw [hcooldown, cooldownEvent, if_pos hfires, enterIdle_of_cooldown hst hok]
    exact next_settle_eq hs
  · rw [hdebounce, debounceEvent, State.debounceDue, Timer.not_due hno, Bool.and_false]
    exact next_settle_eq hs
  · rw [hstale, staleEvent, State.staleDue, Timer.not_due hno, Bool.and_false]
    exact next_settle_eq hs
  · rw [hguard, guardEvent, State.guardDue, Timer.not_due hno, Bool.and_false]
    exact next_settle_eq hs
  · rw [hdrain, drainEvent, State.drainDue, Timer.not_due hno, Bool.and_false]
    exact next_settle_eq hs
  · rw [hcooldown, cooldownEvent, State.cooldownDue, Timer.not_due hno, Bool.and_false]
    exact next_settle_eq hs

end Sys2Proof.Proofs
end

section
/-! SUPPORT. The port requests that neither open nor end an episode (R88, R89, R97, R98, R105, R106). -/

namespace Sys2Proof.Machine

section
variable {q : PrcPort} (h : q.timersOk)
include h

/-- DISARMED left for IDLE (R88). -/
theorem PrcPort.timersOk.idle_of_disarmed (hst : q.state = .disarmed) : q.enter .idle = { q with state := .idle } := by
  have hqual := h.not_qualified (by rw [hst]; nofun)
  have hdebounce := h.debounce_stopped (by rw [hst]; nofun)
  have hstale := h.stale_stopped (by rw [hst]; rfl)
  have hguard := h.guard_stopped (by rw [hst]; rfl)
  have hdrain := h.drain_stopped (by rw [hst]; nofun)
  have hcooldown := h.cooldown_stopped (by rw [hst]; nofun)
  rw [PrcPort.enter_idle]
  simp [hqual, hdebounce, hstale, hguard, hdrain, hcooldown]

/-- A state without an episode left for DISARMED (R89). -/
theorem PrcPort.timersOk.disarmed_of_no_episode (hst : q.state.hasEpisode = false) :
    { q.enter .disarmed with standby := none } = { q with
      state := .disarmed, qualified := false, debounce := .stopped, stale := .stopped, cooldown := .stopped } := by
  have hguard := h.guard_stopped (by revert hst; cases q.state <;> simp [PortState.hasEpisode, PortState.runsGuard])
  have hdrain := h.drain_stopped fun hd => by rw [hd] at hst; exact nomatch hst
  have hstandby := h.no_standby hst
  rw [PrcPort.enter_disarmed]
  simp [hguard, hdrain, hstandby]

/-- A DISARMED port that is disarmed again. -/
theorem PrcPort.timersOk.disarmed_again (hst : q.state = .disarmed) : { q with standby := none } = { q with
      state := .disarmed, qualified := false, debounce := .stopped, stale := .stopped, cooldown := .stopped } := by
  have hqual := h.not_qualified (by rw [hst]; nofun)
  have hdebounce := h.debounce_stopped (by rw [hst]; nofun)
  have hstale := h.stale_stopped (by rw [hst]; rfl)
  have hcooldown := h.cooldown_stopped (by rw [hst]; nofun)
  have hstandby := h.no_standby (by rw [hst]; rfl)
  simp [hst, hqual, hdebounce, hstale, hcooldown, hstandby]

end

section
variable {s : State} {p : Port}

theorem armOn_eq (h : (s.prcAt p).timersOk) : armOn p s =
    (s.modPrc p fun q => { q with state := if q.state = .disarmed then .idle else q.state }, [0]) := by
  unfold armOn
  refine Prod.ext ?_ rfl
  dsimp only
  split
  · next hst =>
    refine State.modPrc_congr s p _ _ ?_
    rw [if_pos hst]
    exact h.idle_of_disarmed hst
  · next hst =>
    refine (State.modPrc_same s p _ ?_).symm
    rw [if_neg hst]

theorem disarmOn_eq (h : (s.prcAt p).timersOk) (hst : (s.prcAt p).state.hasEpisode = false) : disarmOn p s =
    (s.modPrc p fun q => { q with
      state := .disarmed, qualified := false, debounce := .stopped, stale := .stopped, cooldown := .stopped },
      [0, BitVec.ofNat 8 (s.prcAt p).state.code]) := by
  unfold disarmOn
  refine Prod.ext ?_ (congrArg (0 :: ·) (be_one _))
  dsimp only
  rw [hst, if_neg Bool.false_ne_true]
  split
  · next hd => exact State.modPrc_congr s p _ _ (h.disarmed_again hd)
  · rw [clearStandby, State.enterPort, State.modPrc_modPrc]
    exact State.modPrc_congr s p _ _ (h.disarmed_of_no_episode hst)

theorem stopReliefOn_eq (h : (s.prcAt p).timersOk) (hst : (s.prcAt p).state.hasEpisode = false) :
    stopReliefOn p s = (s, [0, 1]) := by
  have hstandby := h.no_standby hst
  unfold stopReliefOn
  dsimp only
  rw [hst, hstandby, if_neg Bool.false_ne_true, clearStandby, State.modPrc_same]
  · rfl
  · rw [← hstandby]

section
variable {b : List Byte} {n : ProgNo}

theorem startReliefChecked_range (hq : 16 ≤ fieldAt b 1 1) : startReliefChecked b p s = refuse .range [] s := by
  unfold startReliefChecked programNo
  rw [dif_neg (by omega)]

variable (hq : fieldAt b 1 1 = n.val)
include hq

theorem programNo_eq : programNo (fieldAt b 1 1) = some n := by
  unfold programNo
  rw [dif_pos (by omega)]
  exact congrArg some (Fin.ext hq)

theorem startReliefChecked_disarmed (hst : (s.prcAt p).state = .disarmed) :
    startReliefChecked b p s = refuse .notArmed [] s := by
  unfold startReliefChecked
  rw [programNo_eq hq]
  exact if_pos hst

theorem startReliefChecked_empty (hst : (s.prcAt p).state ≠ .disarmed) (hn : s.pgs.programs[n] = []) :
    startReliefChecked b p s = refuse .empty [] s := by
  unfold startReliefChecked
  rw [programNo_eq hq]
  dsimp only
  rw [if_neg hst, hn]
  rfl

theorem startReliefChecked_armed (hst : (s.prcAt p).state ≠ .disarmed) (hn : s.pgs.programs[n] ≠ []) :
    startReliefChecked b p s = startReliefOn p n s := by
  unfold startReliefChecked
  rw [programNo_eq hq]
  dsimp only
  rw [if_neg hst, if_neg (by simpa using hn)]

end

theorem startReliefOn_queued {n : ProgNo} (hst : (s.prcAt p).state.hasEpisode = true) (hno : (s.prcAt p).standby = none) :
    startReliefOn p n s = (s.modPrc p fun x => { x with standby := some n }, 1 :: be 1 n.val) := by
  unfold startReliefOn
  rw [if_pos hst, hno]
  rfl

theorem startReliefOn_busy {n m : ProgNo} (hst : (s.prcAt p).state.hasEpisode = true)
    (hm : (s.prcAt p).standby = some m) : startReliefOn p n s = (s, [2, BitVec.ofNat 8 m.val]) := by
  unfold startReliefOn
  rw [if_pos hst, hm]
  dsimp only
  rw [be_one]
  rfl

theorem startReliefOn_opens {n : ProgNo} (hst : (s.prcAt p).state.hasEpisode = false) :
    startReliefOn p n s =
      (openEpisode p .manual n s, 0 :: be 4 ((openEpisode p .manual n s).prcAt p).episode.number) := by
  unfold startReliefOn
  rw [hst]
  rfl

theorem pauseOn_refused (h : (s.prcAt p).state ≠ .relief) : pauseOn p s = refuse .state [] s := if_neg h

theorem resumeOn_refused (h : (s.prcAt p).state ≠ .paused) : resumeOn p s = refuse .state [] s := if_neg h

end

end Sys2Proof.Machine

namespace Sys2Proof.Proofs

open Sys2Proof Sys2Proof.Machine

/-- Settles O49. -/
theorem portRequestsByState : Obligations.PortRequestsByState := by
  intro s p tag pb hlane hok hport
  have hfield : fieldAt [pb] 0 1 = p.val := (fieldAt_cons_zero pb []).trans hport
  have heffect (f : Port → State → Effect) : withPort f [pb] { s with clc := s.clc.taken } =
      f p { s with clc := s.clc.taken } := withPort_eq hfield f _
  refine ⟨fun ht => ?_, fun ht hst => ?_, fun ht hst => ?_, fun qb ht => ?_, fun ht hst => ?_, fun ht hst => ?_⟩
  · exact exec_answers (c := .arm tag [pb]) (t := s.modPrc p fun q =>
      { q with state := if q.state = .disarmed then .idle else q.state }) rfl rfl ht hlane
      ((heffect armOn).trans (armOn_eq hok))
  · exact exec_answers (c := .disarm tag [pb]) (t := s.modPrc p fun q => { q with
      state := .disarmed, qualified := false, debounce := .stopped, stale := .stopped, cooldown := .stopped }) rfl rfl ht
      hlane ((heffect disarmOn).trans (disarmOn_eq hok hst))
  · exact exec_unchanged (c := .stopRelief tag [pb]) rfl rfl ht hlane
      ((heffect stopReliefOn).trans (stopReliefOn_eq hok hst))
  · have hstart : effectOf (.startRelief tag [pb, qb]) { s with clc := s.clc.taken } =
        startReliefChecked [pb, qb] p { s with clc := s.clc.taken } :=
      withPort_eq ((fieldAt_cons_zero pb [qb]).trans hport) _ _
    have hprogram : fieldAt [pb, qb] 1 1 = qb.toNat := (fieldAt_cons_succ ..).trans (fieldAt_cons_zero ..)
    refine ⟨fun hq => ?_, fun n hq => ⟨fun hst => ?_, fun hst hn => ?_, fun hst hn hno => ?_, fun m hst hn hm => ?_⟩⟩
    · exact exec_unchanged (c := .startRelief tag [pb, qb]) rfl rfl ht hlane
        (hstart.trans (startReliefChecked_range (hprogram.symm ▸ hq)))
    · exact exec_unchanged (c := .startRelief tag [pb, qb]) rfl rfl ht hlane
        (hstart.trans (startReliefChecked_disarmed (hprogram.trans hq) hst))
    · exact exec_unchanged (c := .startRelief tag [pb, qb]) rfl rfl ht hlane
        (hstart.trans (startReliefChecked_empty (hprogram.trans hq) hst hn))
    · have harmed : (s.prcAt p).state ≠ .disarmed := fun hd => by rw [hd] at hst; exact nomatch hst
      have hprog := startReliefChecked_armed (s := { s with clc := s.clc.taken }) (p := p) (hprogram.trans hq) harmed hn
      have hqueued := startReliefOn_queued (s := { s with clc := s.clc.taken }) (n := n) hst hno
      rw [← hq, be_one_toNat] at hqueued
      exact exec_answers (c := .startRelief tag [pb, qb]) (t := s.modPrc p fun q => { q with standby := some n }) rfl rfl ht
        hlane (hstart.trans (hprog.trans hqueued))
    · have harmed : (s.prcAt p).state ≠ .disarmed := fun hd => by rw [hd] at hst; exact nomatch hst
      have hprog := startReliefChecked_armed (s := { s with clc := s.clc.taken }) (p := p) (hprogram.trans hq) harmed hn
      have hbusy := startReliefOn_busy (s := { s with clc := s.clc.taken }) (n := n) hst hm
      exact exec_unchanged (c := .startRelief tag [pb, qb]) rfl rfl ht hlane
        (hstart.trans (hprog.trans hbusy))
  · exact exec_unchanged (c := .pause tag [pb]) rfl rfl ht hlane ((heffect pauseOn).trans (pauseOn_refused hst))
  · exact exec_unchanged (c := .resume tag [pb]) rfl rfl ht hlane ((heffect resumeOn).trans (resumeOn_refused hst))

end Sys2Proof.Proofs
end

section
/-! SUPPORT. What a change of one port leaves alone (`OthersKept`), step by step, and the waiting notices that an event
keeps until its end (R174, R176). -/

namespace Sys2Proof.Machine

/-! ### Changes of one port -/

section
variable {p : Port} {s t u : State}

theorem OthersKept.refl (p : Port) (s : State) : OthersKept p s s :=
  ⟨fun _ _ => ⟨rfl, rfl, rfl, rfl⟩, fun _ _ he _ => he, rfl, rfl, rfl, rfl, rfl, rfl, rfl, rfl⟩

theorem OthersKept.trans (h : OthersKept p s t) (k : OthersKept p t u) : OthersKept p s u := by
  obtain ⟨ports, entries, config, age, ctr, sets, cmp, pgs, tmb, phase⟩ := h
  obtain ⟨ports', entries', config', age', ctr', sets', cmp', pgs', tmb', phase'⟩ := k
  refine ⟨fun q hq => ?_, fun i e he hp => entries' i e (entries i e he hp) hp, config'.trans config, age'.trans age,
    ctr'.trans ctr, sets'.trans sets, cmp'.trans cmp, pgs'.trans pgs, tmb'.trans tmb, phase'.trans phase⟩
  obtain ⟨hprc, hadu, hcru, hoev⟩ := ports q hq
  obtain ⟨hprc', hadu', hcru', hoev'⟩ := ports' q hq
  exact ⟨hprc'.trans hprc, hadu'.trans hadu, hcru'.trans hcru, hoev'.trans hoev⟩

theorem OthersKept.of_quiet (h : Quiet s t)
    (ports : ∀ q, q ≠ p → t.prcAt q = s.prcAt q ∧ t.aduAt q = s.aduAt q ∧ t.cruAt q = s.cruAt q ∧ t.oevAt q = s.oevAt q)
    (entries : ∀ i e, s.rtb.entry? i = some e → e.port ≠ p → t.rtb.entry? i = some e) : OthersKept p s t :=
  ⟨ports, entries, h.config p, h.ageLimit, h.rtbCtr, h.sets, h.cmp, h.pgs, h.tmb, h.phase⟩

/-- Only blocks that no other port's state stands in have changed. -/
theorem OthersKept.of_blocks (hprc : t.prc.port = s.prc.port) (hadu : t.adu.port = s.adu.port) (hcru : t.cru.port = s.cru.port)
    (hrest : (t.oev, t.rtb, t.cmp, t.pgs, t.tmb, t.phase) = (s.oev, s.rtb, s.cmp, s.pgs, s.tmb, s.phase)) :
    OthersKept p s t := by
  simp only [Prod.mk.injEq] at hrest
  obtain ⟨hoev, hrtb, hcmp, hpgs, htmb, hphase⟩ := hrest
  refine ⟨fun q _ => ?_, fun i e he _ => by rw [hrtb, he], ?_, ?_, ?_, ?_, hcmp, hpgs, htmb, hphase⟩
  · simp only [State.prcAt, State.aduAt, State.cruAt, State.oevAt, hprc, hadu, hcru, hoev, and_self]
  · simp only [State.prcAt, hprc]
  · rw [hrtb]
  · rw [hrtb]
  · rw [hoev]

theorem othersKept_raise (c : NoticeClass) (sc : Option Port) (ep v : Nat) : OthersKept p s (s.raise c sc ep v) :=
  .of_blocks rfl rfl rfl rfl

theorem othersKept_raiseEpisode (c : NoticeClass) (v : Nat) : OthersKept p s (s.raiseEpisode c p v) :=
  othersKept_raise ..

theorem othersKept_ern (e : Ern) : OthersKept p s { s with ern := e } := .of_blocks rfl rfl rfl rfl

theorem othersKept_settle : OthersKept p s (settle s) := by
  obtain ⟨h1, h2, h3, h4, h5, h6, h7, h8, h9, h10, h11⟩ := settle_frame s
  refine .of_blocks ?_ ?_ ?_ ?_ <;> simp [*]

theorem othersKept_rerate : OthersKept p s (rerate p s) := by
  rw [rerate_rest]
  exact .of_blocks rfl rfl rfl rfl

theorem othersKept_modPrc (f : PrcPort → PrcPort) (hf : (f (s.prcAt p)).config = (s.prcAt p).config) :
    OthersKept p s (s.modPrc p f) :=
  ⟨fun q hq => ⟨State.prcAt_modPrc_ne p s f hq, rfl, rfl, rfl⟩, fun _ _ he _ => he,
    by rw [State.prcAt_modPrc_self]; exact hf, rfl, rfl, rfl, rfl, rfl, rfl, rfl⟩

theorem othersKept_modEpisode (f : Episode → Episode) : OthersKept p s (s.modEpisode p f) := othersKept_modPrc _ rfl

theorem othersKept_modCru (f : CruPort → CruPort) : OthersKept p s (s.modCru p f) :=
  ⟨fun q hq => ⟨rfl, rfl, by rw [State.cruAt_modCru, if_neg hq], rfl⟩, fun _ _ he _ => he, rfl, rfl, rfl, rfl, rfl, rfl,
    rfl, rfl⟩

theorem othersKept_modOev (f : OevPort → OevPort) : OthersKept p s (s.modOev p f) :=
  ⟨fun q hq => ⟨rfl, rfl, rfl, by rw [State.oevAt_modOev, if_neg hq]⟩, fun _ _ he _ => he, rfl, rfl, rfl, rfl, rfl, rfl,
    rfl, rfl⟩

theorem othersKept_modAdu (f : AduPort → AduPort) : OthersKept p s (s.modAdu p f) :=
  ⟨fun q hq => ⟨rfl, by rw [State.aduAt_modAdu, if_neg hq], rfl, rfl⟩, fun _ _ he _ => he, rfl, rfl, rfl, rfl, rfl, rfl,
    rfl, rfl⟩

theorem AtEntry.onlyPort {i : Slot} {e : Entry} (h : AtEntry p i s t) (he : s.rtb.entry? i = some e) (hp : e.port = p) :
    OthersKept p s t := by
  refine .of_quiet h.quiet (fun q hq => ?_) fun j x hx hne => ?_
  · obtain ⟨hprc, hadu⟩ := h.others q hq
    exact ⟨hprc, hadu, by rw [State.cruAt, h.cru]; rfl, by rw [State.oevAt, h.oev]; rfl⟩
  · have hj : j ≠ i := by
      rintro rfl
      obtain rfl := Option.some.inj (he.symm.trans hx)
      exact hne hp
    rw [h.entries j hj, hx]

end

/-! ### Notices kept until the end of the event -/

/-- An occurrence raised earlier in an event waits in the pending set, unless its class is at level 0. -/
def Ern.Holds (e : Ern) (c : NoticeClass) (sc : Option Port) (episode value : Nat) (time : BitVec 32) : Prop :=
  e.level c ≠ 0 → ∃ n ∈ e.pendingSet, n.cls = c ∧ n.scope = sc ∧ n.level = e.level c ∧ n.episode = episode ∧
    n.value = value ∧ n.time = time

section
variable {e : Ern} {c d : NoticeClass} {sc sc' : Option Port} {ep ep' v v' : Nat} {time time' : BitVec 32}

theorem Ern.holds_raise : (e.raise c sc ep v time).Holds c sc ep v time := by
  have hlevels := (Ern.raise_keeps e c sc ep v time).1
  have hlevel : (e.raise c sc ep v time).level c = e.level c := by rw [Ern.level, hlevels, Ern.level]
  intro hl
  rw [hlevel] at hl ⊢
  exact e.raise_waits c sc ep v time hl

/-- A notice of another class leaves a waiting notice as it is. -/
theorem Ern.mem_raise {n : Notice} (hn : n ∈ e.pendingSet) (hc : n.cls ≠ c) : n ∈ (e.raise c sc ep v time).pendingSet := by
  unfold Ern.raise
  split
  · exact hn
  split
  · exact List.mem_map.mpr ⟨n, hn, if_neg fun h => hc (by simp_all)⟩
  · exact mem_insertNotice.mpr (.inr hn)

theorem Ern.Holds.raise (h : e.Holds d sc' ep' v' time') (hc : d ≠ c) :
    (e.raise c sc ep v time).Holds d sc' ep' v' time' := by
  have hlevels := (Ern.raise_keeps e c sc ep v time).1
  have hlevel : (e.raise c sc ep v time).level d = e.level d := by rw [Ern.level, hlevels, Ern.level]
  intro hl
  rw [hlevel] at hl ⊢
  obtain ⟨n, hn, hcls, hrest⟩ := h hl
  exact ⟨n, Ern.mem_raise hn (hcls ▸ hc), hcls, hrest⟩

theorem Ern.Holds.announces {u : State} (h : u.ern.Holds d sc' ep' v' time') : u.announces d sc' ep' v' time' := by
  intro hl
  obtain ⟨n, hn, hcls, hsc, hlevel, hep, hv, htime⟩ := h hl
  exact ⟨n, hcls, hsc, hlevel, hep, hv, htime, .inl hn⟩

/-- The fabric transmitter raises no notice but LINK_STATE. -/
theorem Ern.Holds.fabPump {u : State} (h : u.ern.Holds d sc' ep' v' time') (hd : d ≠ .linkState) :
    (fabPump u).ern.Holds d sc' ep' v' time' := by
  unfold Machine.fabPump
  split_ifs
  · exact h
  · exact h
  · exact h
  · exact Ern.Holds.raise h hd
  · exact h

/-- What waits when an event's blocks are done is announced at its end. -/
theorem Ern.Holds.settle {u : State} (h : u.ern.Holds d sc' ep' v' time') (hd : d ≠ .linkState) :
    (settle u).announces d sc' ep' v' time' := by
  have hpump := h.fabPump hd
  have hlevel : (Machine.settle u).ern.level d = (Machine.fabPump u).ern.level d := by
    rw [Ern.level, Machine.settle, ctlPump_levels, Ern.level]
  intro hl
  rw [hlevel] at hl ⊢
  obtain ⟨n, hn, hcls, hsc, hlev, hep, hv, htime⟩ := hpump hl
  exact ⟨n, hcls, hsc, hlev, hep, hv, htime, ctlPump_keeps_notice (Machine.fabPump u) hn⟩

theorem Ern.Holds.append {x : Summary} (h : e.Holds d sc' ep' v' time') : (e.append x).Holds d sc' ep' v' time' := by
  unfold Ern.append
  split <;> exact h

end

theorem State.raiseEpisode_holds {s : State} {c : NoticeClass} {p : Port} {v : Nat} :
    (s.raiseEpisode c p v).ern.Holds c (some p) (s.prcAt p).episode.number v s.stamp := Ern.holds_raise

end Sys2Proof.Machine
end

section
/-! SUPPORT. A refill and a re-rating with their orders and the episode's counts (R111, R125, R132, R133, R145, R147). -/

namespace Sys2Proof.Machine

/-! ### Gates that a refill makes SHAPED -/

/-- Between `a` and `b` some CLOSED gates have become SHAPED, and every gate that has changed has joined the FIFO; no gate
has another binding (R125, R145). -/
structure Gpm.Shapes (a b : Gpm) : Prop where
  enqueued : a.Enqueued b
  keeps    : ∀ g, (b.gate g).epoch = (a.gate g).epoch ∧ (b.gate g).bound = (a.gate g).bound
  shaped   : ∀ g, (a.gate g).mode = .shaped → (b.gate g).mode = .shaped
  changed  : ∀ g, ¬(b.gate g).sameWanted (a.gate g) → (a.gate g).mode = .closed ∧ (b.gate g).mode = .shaped
  others   : ∀ g, (a.gate g).mode ≠ .closed → b.gate g = a.gate g

namespace Gpm.Shapes

variable {a b c : Gpm}

theorem refl (a : Gpm) : a.Shapes a := ⟨.refl a, fun _ => ⟨rfl, rfl⟩, fun _ => id, fun _ h => absurd (.refl _) h, fun _ _ => rfl⟩

theorem trans (h : a.Shapes b) (k : b.Shapes c) : a.Shapes c where
  enqueued := h.enqueued.trans k.enqueued fun g hg hca => by
    obtain ⟨hclosed, hshaped⟩ := h.changed g hg
    obtain ⟨_, _, hmode, _⟩ := hca
    exact nomatch (k.shaped g hshaped).symm.trans (hmode.trans hclosed)
  keeps g := ⟨(k.keeps g).1.trans (h.keeps g).1, (k.keeps g).2.trans (h.keeps g).2⟩
  shaped g hg := k.shaped g (h.shaped g hg)
  changed g hg := by
    by_cases hba : (b.gate g).sameWanted (a.gate g)
    · obtain ⟨hclosed, hshaped⟩ := k.changed g fun hcb => hg (hcb.trans hba)
      exact ⟨hba.2.2.1.symm.trans hclosed, hshaped⟩
    · obtain ⟨hclosed, hshaped⟩ := h.changed g hba
      exact ⟨hclosed, k.shaped g hshaped⟩
  others g hg := by
    have hsame := h.others g hg
    rw [k.others g (by rw [hsame]; exact hg), hsame]

/-- A CLOSED gate is made SHAPED. -/
theorem want (a : Gpm) {g : GateNo} (d : Nat) (r : Resolution) (hg : (a.gate g).mode = .closed) :
    a.Shapes (a.want g .shaped d r) where
  enqueued := a.want_enqueued ..
  keeps h := by
    rw [Gpm.want_gate]
    split
    · next e => rw [e]; exact ⟨rfl, rfl⟩
    · exact ⟨rfl, rfl⟩
  shaped h hh := by
    rw [Gpm.want_gate]
    split
    · rfl
    · exact hh
  changed h hh := by
    rw [Gpm.want_gate] at hh ⊢
    split at hh
    · next e => rw [e, if_pos rfl]; exact ⟨hg, rfl⟩
    · exact absurd (.refl _) hh
  others h hh := by
    rw [Gpm.want_gate]
    split
    · next e => exact absurd (e ▸ hg) hh
    · rfl

end Gpm.Shapes

/-- The gates that a refill makes SHAPED go on being changed when the port is re-rated. -/
theorem Gpm.Shapes.rerate {a : Gpm} {s : State} (h : a.Shapes s.gpm) (p : Port) : a.Enqueued (rerate p s).gpm :=
  h.enqueued.trans (rerate_enqueued p s) fun g hg hsame => by
    obtain ⟨hclosed, hshaped⟩ := h.changed g hg
    obtain ⟨_, _, hmode, _⟩ := hsame
    rw [(rerate_gate_keeps p s g).2.2, hshaped, hclosed] at hmode
    exact nomatch hmode

theorem Gpm.Shapes.rerate_keeps {a : Gpm} {s : State} (h : a.Shapes s.gpm) (p : Port) (g : GateNo) :
    ((Machine.rerate p s).gpm.gate g).epoch = (a.gate g).epoch ∧
      ((Machine.rerate p s).gpm.gate g).bound = (a.gate g).bound := by
  obtain ⟨hepoch, hbound, _⟩ := rerate_gate_keeps p s g
  exact ⟨hepoch.trans (h.keeps g).1, hbound.trans (h.keeps g).2⟩

/-! ### The admissions of a refill -/

theorem sat32_sat32_add (a b : Nat) : sat32 (sat32 a + b) = sat32 (a + b) := by unfold sat32; omega

theorem Episode.admitting_admitting (e : Episode) (n : Nat) :
    Episode.admitting n (Episode.admitting 1 e) = Episode.admitting (n + 1) e := by
  have htwice (k : Nat) : sat32 (sat32 k) = sat32 k := sat32_sat32_add k 0
  unfold Episode.admitting
  rw [if_neg one_ne_zero, if_neg n.succ_ne_zero]
  split
  · next h => rw [h]
  · simp only [sat32_sat32_add, htwice, Nat.add_comm 1 n, Nat.add_assoc]

/-- Between `s` and `t` waiting entries of a port have been admitted, `n` in number, and re-rating has not followed. -/
structure Admits (p : Port) (n : Nat) (s t : State) : Prop where
  others : OthersKept p s t
  port   : t.prcAt p = { s.prcAt p with episode := Episode.admitting n (s.prcAt p).episode }
  gates  : s.gpm.Shapes t.gpm
  cru    : t.cru = s.cru
  oev    : t.oev = s.oev
  quiet  : Quiet s t

section
variable {p : Port} {s : State} (h : s.booksOk)
include h

/-- A WAITING entry that is admitted keeps its gate, which becomes SHAPED (R125). -/
theorem admitWaiting_shapes {i : Slot} {e : Entry} (he : s.rtb.entry? i = some e) (hst : e.state = .waiting) (mark : Bool) :
    s.gpm.Shapes (admitWaiting p mark i s).gpm := by
  obtain ⟨r, hr⟩ := (h.entryOk he).gated (by rw [hst]; rfl)
  obtain ⟨_, _, _, hgpm⟩ := admitWaiting_effects (p := p) mark he hr
  obtain ⟨_, _, hmode⟩ := h.gate_of_entry he hr
  rw [hgpm]
  exact .want _ _ _ (by rw [hmode, hst]; rfl)

theorem admitWaiting_one {i : Slot} (hi : i ∈ (s.aduAt p).waitQ) : Admits p 1 s (admitWaiting p false i s) := by
  obtain ⟨e, he, hp, hst⟩ := ((h.waiting p).2 i).mp hi
  obtain ⟨r, hr⟩ := (h.entryOk he).gated (by rw [hst]; rfl)
  obtain ⟨_, _, hepisode, _⟩ := admitWaiting_effects (p := p) false he hr
  have hat : AtEntry p i s (admitWaiting p false i s) := atEntry_admitWaiting false
  have hport := congrArg (fun q : PrcPort => { q with episode := ((admitWaiting p false i s).prcAt p).episode }) hat.port
  exact {
    others := hat.onlyPort he hp
    port := hport.trans (by rw [hepisode]; rfl)
    gates := admitWaiting_shapes h he hst false
    cru := hat.cru
    oev := hat.oev
    quiet := hat.quiet }

end

theorem Admits.cons {p : Port} {n : Nat} {s t u : State} (h : Admits p 1 s t) (k : Admits p n t u) :
    Admits p (n + 1) s u where
  others := h.others.trans k.others
  port := by simp only [k.port, h.port, Episode.admitting_admitting]
  gates := h.gates.trans k.gates
  cru := k.cru.trans h.cru
  oev := k.oev.trans h.oev
  quiet := h.quiet.trans k.quiet

theorem admits_admitAll {p : Port} {l rest : List Slot} {s : State} (h : s.booksOk) (hq : (s.aduAt p).waitQ = l ++ rest) :
    Admits p l.length s (admitAll p l s) := by
  induction l generalizing s with
  | nil => exact ⟨.refl p s, rfl, .refl _, rfl, rfl, .refl s⟩
  | cons i l ih =>
    have hi : i ∈ (s.aduAt p).waitQ := by rw [hq]; exact List.mem_cons_self
    obtain ⟨e, he, hp, hst⟩ := ((h.waiting p).2 i).mp hi
    exact (admitWaiting_one h hi).cons (ih (admitWaiting_books false h he hp hst)
      (by rw [admitWaiting_aduAt, hq]; exact List.erase_cons_head ..))

section
variable {p : Port} {s : State} (h : s.booksOk)
include h

/-- What a refill does (R125, R132). -/
theorem admits_refill :
    Admits p (s.refillCount p (s.admittedCount p) (s.aduAt p).waitQ) s (refill p s) := by
  unfold State.refillCount
  split
  · next hst =>
    rw [refill_eq_admitAll p s hst]
    have := admits_admitAll (p := p) h (List.take_append_drop ((s.currentStep p).width - s.admittedCount p) _).symm
    rwa [List.length_take, Nat.min_comm] at this
  · next hst =>
    rw [refill_of_not_relief p s hst]
    exact ⟨.refl p s, rfl, .refl _, rfl, rfl, .refl s⟩

theorem refill_books : (refill p s).booksOk := by
  by_cases hst : (s.prcAt p).state = .relief
  · exact (refill_admits p s h hst).books
  · rwa [refill_of_not_relief p s hst]

theorem refill_step : ((refill p s).prcAt p).state = (s.prcAt p).state ∧
    (refill p s).currentStep p = s.currentStep p := by
  by_cases hst : (s.prcAt p).state = .relief
  · exact ⟨(refill_admits p s h hst).state, (refill_admits p s h hst).step⟩
  · rw [refill_of_not_relief p s hst]; exact ⟨rfl, rfl⟩

theorem refill_queues :
    let n := s.refillCount p (s.admittedCount p) (s.aduAt p).waitQ
    (refill p s).aduAt p = ⟨(s.aduAt p).waitQ.drop n, (s.aduAt p).admitted ++ (s.aduAt p).waitQ.take n⟩ := by
  intro n
  have hn : n = s.refillCount p (s.admittedCount p) (s.aduAt p).waitQ := rfl
  unfold State.refillCount at hn
  split at hn
  · next hst =>
    rw [(refill_admits p s h hst).adu, hn, Nat.min_comm, ← List.take_eq_take_min, ← List.drop_eq_drop_min]
  · next hst => rw [refill_of_not_relief p s hst, hn]; simp

end

/-! ### Every admitted gate has the divisor (R133, R165) -/

theorem rated_rerate {p : Port} {s : State}
    (h : ∀ i ∈ (s.aduAt p).admitted, ∃ g, s.gateOf i = some g ∧ (s.gpm.gate g).mode = .shaped) : (rerate p s).rated p := by
  intro i hi
  rw [rerate_aduAt] at hi
  obtain ⟨g, hg, hmode⟩ := h i hi
  have hin : g ∈ s.admittedGates p := List.mem_filterMap.mpr ⟨i, hi, hg⟩
  have hgate := rerate_gate p s g
  rw [if_pos hin, Gate.ratedAt, if_pos hmode] at hgate
  refine ⟨g, by rwa [rerate_gateOf], by rw [hgate]; exact hmode, by rw [hgate, rerate_currentStep], ?_⟩
  rw [hgate, rerate_currentStep]
  simp [State.admittedCount, gateDivisor]

theorem State.booksOk.rated_rerate {s : State} (h : s.booksOk) (p : Port) : (rerate p s).rated p :=
  Machine.rated_rerate fun _ hi => by
    obtain ⟨_, g, hg, hmode, _⟩ := h.admitted_gate p hi
    exact ⟨g, hg, hmode⟩

theorem State.rated.settle {u : State} {p : Port} (h : u.rated p) : (settle u).rated p := by
  intro i hi
  rw [settle_aduAt] at hi
  obtain ⟨g, hg, hmode, hres, hdiv⟩ := h i hi
  obtain ⟨_, _, smode, sdiv, sres⟩ := settle_sameWanted u g
  refine ⟨g, by rwa [settle_gateOf], smode.trans hmode, by rw [sres, hres, settle_currentStep], ?_⟩
  rw [sdiv, hdiv, settle_currentStep]
  simp [State.admittedCount]

/-! ### Refill and re-rating, settled -/

/-- What a refill and a re-rating leave, in the state that the transmitters then find. -/
structure RefillMade (p : Port) (u v : State) : Prop where
  adu   : v.aduAt p =
    ⟨(u.aduAt p).waitQ.drop (v.refillCount p (u.admittedCount p) (u.aduAt p).waitQ),
      (u.aduAt p).admitted ++ (u.aduAt p).waitQ.take (v.refillCount p (u.admittedCount p) (u.aduAt p).waitQ)⟩
  port  : v.prcAt p = { u.prcAt p with
    episode := Episode.admitting (v.refillCount p (u.admittedCount p) (u.aduAt p).waitQ) (u.prcAt p).episode }
  rated : v.rated p
  gates : u.gpm.Enqueued v.gpm
  keeps : ∀ g, (v.gpm.gate g).epoch = (u.gpm.gate g).epoch ∧ (v.gpm.gate g).bound = (u.gpm.gate g).bound
  others : OthersKept p u v
  cru   : v.cru = u.cru
  oev   : v.oev = u.oev
  quiet : Quiet u v

theorem refillMade_rerate {p : Port} {u : State} (h : u.booksOk) : RefillMade p u (rerate p (refill p u)) := by
  have hmade := admits_refill (p := p) h
  obtain ⟨hstate, hstep⟩ := refill_step (p := p) h
  have hcount : (rerate p (refill p u)).refillCount p (u.admittedCount p) (u.aduAt p).waitQ =
      u.refillCount p (u.admittedCount p) (u.aduAt p).waitQ := by
    simp only [State.refillCount, rerate_prcAt, rerate_currentStep, hstate, hstep]
  exact {
    adu := by rw [hcount, rerate_aduAt, refill_queues h]
    port := by rw [hcount, rerate_prcAt, hmade.port]
    rated := (refill_books h).rated_rerate p
    gates := hmade.gates.rerate p
    keeps := hmade.gates.rerate_keeps p
    others := hmade.others.trans othersKept_rerate
    cru := (rerate_cru ..).trans hmade.cru
    oev := (rerate_oev ..).trans hmade.oev
    quiet := hmade.quiet.trans (quiet_rerate p _) }

/-- Notices raised after it change nothing of a refill. -/
theorem RefillMade.raiseEpisode {p : Port} {u v : State} (h : RefillMade p u v) {c : NoticeClass} (hc : ¬c.deviceScope)
    (n : Nat) : RefillMade p u (v.raiseEpisode c p n) :=
  ⟨h.adu, h.port, h.rated, h.gates, h.keeps, h.others.trans (othersKept_raiseEpisode c n), h.cru, h.oev,
    h.quiet.trans (quiet_raiseEpisode v c p n hc)⟩

/-- A refill and a re-rating of a state that differs from `s` in no gate and no fabric transmitter, settled. -/
theorem RefillMade.refilled {p : Port} {s u v : State} (h : RefillMade p u v)
    (hflc : u.flc.tx = s.flc.tx ∧ u.flc.link = s.flc.link ∧ u.flc.outSeq = s.flc.outSeq)
    (hgpm : s.gpm.Enqueued v.gpm) : Refilled p (u.aduAt p).admitted (u.aduAt p).waitQ s (settle v) := by
  have hcount : (settle v).refillCount p (u.aduAt p).admitted.length (u.aduAt p).waitQ =
      v.refillCount p (u.admittedCount p) (u.aduAt p).waitQ := by
    simp only [State.refillCount, settle_prcAt, settle_currentStep]
    rfl
  exact {
    admitted := by rw [hcount, settle_aduAt, h.adu]
    waiting := by rw [hcount, settle_aduAt, h.adu]
    rated := h.rated.settle
    orders := ordersMade_settle (by rw [h.quiet.flc]; exact hflc) hgpm }

end Sys2Proof.Machine
end

section
/-! SUPPORT. The end of a step: the next step entered, or the drain phase (R99, R110 to R116, R121, R122, R137). -/

namespace Sys2Proof.Machine

/-! ### The next step -/

section
variable {p : Port} {s : State}

theorem othersKept_stepStarted (index : Nat) : OthersKept p s (stepStarted p index s) :=
  ((othersKept_modEpisode _).trans (othersKept_modCru _)).trans (othersKept_modPrc _ rfl)

/-- What the entry of a step leaves of refill, re-rating and EPISODE_STEP (R111, R112, R122). -/
theorem enterStep_refillMade (index : Nat) (byGuard : Bool) (h : s.booksOk) :
    RefillMade p (stepStarted p index s) (enterStep p index byGuard s) := by
  rw [enterStep_eq]
  have hbooks : (stepStarted p index s).booksOk := (keptAt_stepStarted p s index).books h
  exact (refillMade_rerate hbooks).raiseEpisode (by simp [NoticeClass.deviceScope]) _

theorem RefillMade.stamp {u v : State} (h : RefillMade p u v) : v.stamp = u.stamp := by
  rw [State.stamp, h.quiet.tmb, State.stamp]

theorem RefillMade.currentStep {u v : State} (h : RefillMade p u v) : v.currentStep p = u.currentStep p := by
  have hkeeps (n : Nat) (e : Episode) : (Episode.admitting n e).program = e.program ∧
      (Episode.admitting n e).stepIndex = e.stepIndex := by
    unfold Episode.admitting; split <;> exact ⟨rfl, rfl⟩
  unfold State.currentStep
  simp only [h.quiet.pgs, h.port, hkeeps]

theorem Episode.admitting_number (n : Nat) (e : Episode) : (Episode.admitting n e).number = e.number := by
  unfold Episode.admitting; split <;> rfl

/-- EPISODE_STEP waits with the episode's number, the index and the guard bit (R112). -/
theorem enterStep_holds (index : Nat) (byGuard : Bool) (h : s.booksOk) : (enterStep p index byGuard s).ern.Holds
    .episodeStep (some p) (s.prcAt p).episode.number (index + mark128 byGuard) s.stamp := by
  have hbooks : (stepStarted p index s).booksOk := (keptAt_stepStarted p s index).books h
  have hmade := refillMade_rerate (p := p) hbooks
  have hheld := State.raiseEpisode_holds (s := rerate p (refill p (stepStarted p index s))) (c := .episodeStep) (p := p)
    (v := index + mark128 byGuard)
  rw [hmade.stamp, hmade.port, Episode.admitting_number, stepStarted_prcAt] at hheld
  rw [enterStep_eq]
  exact hheld

theorem stepEnded_next (byGuard : Bool) (h : s.booksOk) (hst : (s.prcAt p).state = .relief)
    (hlast : (s.prcAt p).episode.stepIndex + 1 < s.programLength (s.prcAt p).episode.program) :
    StepEnded p byGuard s (settle (enterStep p ((s.prcAt p).episode.stepIndex + 1) byGuard s)) := by
  have hmade := enterStep_refillMade (p := p) ((s.prcAt p).episode.stepIndex + 1) byGuard h
  have hport := hmade.port
  have hguard : ((enterStep p ((s.prcAt p).episode.stepIndex + 1) byGuard s).prcAt p).guard =
      (s.stepAt p ((s.prcAt p).episode.stepIndex + 1)).guardFrom s.now := by rw [hport, stepStarted_prcAt]
  exact {
    others := ((othersKept_stepStarted _).trans hmade.others).trans othersKept_settle
    kept := by
      rw [settle_prcAt, hport, stepStarted_prcAt, settle_oev, hmade.oev]
      exact ⟨rfl, rfl, rfl⟩
    next := fun _ => by
      refine ⟨?_, ?_, ?_, hmade.refilled (s := s) ⟨rfl, rfl, rfl⟩ hmade.gates, ?_, ?_⟩
      · rw [settle_prcAt, hport, stepStarted_prcAt, ← hst]
      · rw [settle_cruAt, State.cruAt, hmade.cru]
        exact (stepStarted_cruAt p s _ p).trans (if_pos rfl)
      · rw [settle_prcAt, hguard, settle_currentStep, hmade.currentStep, stepStarted_currentStep]
        rfl
      · rw [settle_prcAt, hport, stepStarted_prcAt]
        simp only [State.refillCount, settle_prcAt, settle_currentStep]
        rfl
      · exact (enterStep_holds _ byGuard h).settle nofun
    drain := fun hno => absurd hlast hno }

end

/-! ### The drain phase -/

section
variable {p : Port} {s : State}

/-- In RELIEF every gate that the entries of the port hold is held by a WAITING or an ADMITTED one (R137). -/
theorem heldBackGates_of_relief (h : s.booksOk) (hst : (s.prcAt p).state = .relief) : s.heldBackGates p = s.portGates p := by
  refine List.filterMap_congr fun i hi => ?_
  obtain ⟨e, he, hp⟩ := ((h.table.2 p).2 i).mp hi
  have hocc := h.occurs he
  rw [hp, hst] at hocc
  unfold State.heldBack State.gateOf
  rw [he]
  show (if _ then _ else _) = _
  split
  · rfl
  · next hno =>
    have hbare : e.state.holdsGate = false := by
      revert hno hocc
      cases e.state <;> simp [EntryState.occursIn, EntryState.holdsGate]
    show none = e.gate.map (·.gate)
    rw [((h.entryOk he).bare hbare).1]
    rfl

theorem othersKept_enterDrain (h : s.booksOk) : OthersKept p s (enterDrain p s) := by
  have hgates := gatesOk_enterPort (p := p) (State.booksOk_iff.mp h).1 .drain
  obtain ⟨_, hrtb, _⟩ := enterDrain_gates_entries (p := p) (s := s)
  refine .of_quiet (quiet_enterDrain p s) (fun q hq => ⟨enterDrain_prcAt_ne p s hq, ?_, ?_, ?_⟩) fun i e he hp => ?_
  · rw [enterDrain_aduAt, if_neg hq]
  · unfold enterDrain; rw [releaseAll_rest]; rfl
  · unfold enterDrain; rw [releaseAll_rest]; rfl
  · rw [hrtb, releaseAll_entry? hgates p he, if_neg hp]

theorem enterDrain_gpm (h : s.booksOk) (hst : (s.prcAt p).state = .relief) :
    (enterDrain p s).gpm = s.gpm.releaseGates (s.portGates p) := by
  have hgates := gatesOk_enterPort (p := p) (State.booksOk_iff.mp h).1 .drain
  rw [← heldBackGates_of_relief h hst]
  exact releaseAll_gpm hgates p

theorem enterDrain_entry? (h : s.booksOk) {i : Slot} {e : Entry} (he : s.rtb.entry? i = some e) (hp : e.port = p) :
    (enterDrain p s).rtb.entry? i = some e.released := by
  have hgates := gatesOk_enterPort (p := p) (State.booksOk_iff.mp h).1 .drain
  obtain ⟨_, hrtb, _⟩ := enterDrain_gates_entries (p := p) (s := s)
  rw [hrtb, releaseAll_entry? hgates p he, if_pos hp]

/-- The taking of an order without an add leaves the gate's record (R148). -/
theorem Gpm.takeBatch_gate_of_no_add {m : Gpm} {g : GateNo} (h : (m.gate g).pendingAdd = 0) :
    m.takeBatch.gate g = m.gate g := by
  rw [Gpm.takeBatch_gate]
  split
  · rw [Gate.taken, if_pos h]
    have heta : m.gate g = { m.gate g with pendingAdd := 0 } := by rw [← h]
    rw [heta]
  · rfl

theorem settle_gate_of_no_add {u : State} {g : GateNo} (h : (u.gpm.gate g).pendingAdd = 0) :
    (settle u).gpm.gate g = u.gpm.gate g := by
  rcases State.laneTakes_gpm (laneTakes_settle (s := u) ⟨rfl, rfl, rfl⟩) with hgpm | hgpm <;> rw [hgpm]
  exact Gpm.takeBatch_gate_of_no_add h

/-- The gates of a port's entries are OPEN in the drain phase only. -/
theorem State.booksOk.portGates_held (h : s.booksOk) (hst : (s.prcAt p).state = .relief) {g : GateNo}
    (hg : g ∈ s.portGates p) : (s.gpm.gate g).mode ≠ .opened := by
  obtain ⟨i, e, r, he, hp, hr, rfl⟩ := (State.booksOk_iff.mp h).1.portGates_bound p hg
  have hocc := h.occurs he
  rw [hp, hst] at hocc
  obtain ⟨_, _, hmode⟩ := h.gate_of_entry he hr
  rw [hmode]
  revert hocc
  cases e.state <;> simp [EntryState.occursIn, EntryState.mode]

/-- The orders of the released gates are on their way, in the order of the arrival list (R137, R145, R147). -/
theorem enterDrain_orders (h : s.booksOk) (hst : (s.prcAt p).state = .relief) :
    OrdersMade ((s.portGates p).filter (· ∉ s.gpm.fifo)) s (settle (enterDrain p s)) := by
  have hnodup := (State.booksOk_iff.mp h).1.portGates_nodup p
  have hclosed := fun g hg => h.portGates_held hst (g := g) hg
  have hgpm := enterDrain_gpm h hst
  refine ⟨hnodup.filter _, fun g => ?_, (enterDrain p s).gpm, ?_, ?_⟩
  · have hsame := settle_sameWanted (enterDrain p s) g
    have hgate : (enterDrain p s).gpm.gate g = if g ∈ s.portGates p then (s.gpm.gate g).released else s.gpm.gate g := by
      rw [hgpm, Gpm.releaseGates_gate]
    rw [List.mem_filter, decide_eq_true_eq, and_comm]
    refine and_congr_right fun _ => ⟨fun hg hold => ?_, fun hne => by_contra fun hg => ?_⟩
    · have hnow := hsame.symm.trans hold
      rw [hgate, if_pos hg] at hnow
      obtain ⟨_, _, hmode, _⟩ := hnow
      exact hclosed g hg hmode.symm
    · rw [hgate, if_neg hg] at hsame
      exact hne hsame
  · rw [hgpm]
    exact Gpm.releaseGates_fifo hnodup hclosed
  · exact laneTakes_settle (by rw [(quiet_enterDrain p s).flc]; exact ⟨rfl, rfl, rfl⟩)

theorem stepEnded_drain (byGuard : Bool) (h : s.booksOk) (hst : (s.prcAt p).state = .relief)
    (hlast : ¬(s.prcAt p).episode.stepIndex + 1 < s.programLength (s.prcAt p).episode.program) :
    StepEnded p byGuard s (settle (enterDrain p s)) := by
  have hport := enterDrain_prcAt p s
  rw [PrcPort.enter_drain] at hport
  have hrest : (enterDrain p s).oev = s.oev ∧ (enterDrain p s).cru = s.cru := by
    unfold enterDrain
    rw [releaseAll_rest]
    exact ⟨rfl, rfl⟩
  obtain ⟨hoev, hcru⟩ := hrest
  exact {
    others := (othersKept_enterDrain h).trans othersKept_settle
    kept := by rw [settle_oev, settle_prcAt, hport, hoev]; exact ⟨rfl, rfl, rfl⟩
    next := fun hnext => absurd hnext hlast
    drain := fun _ => by
      rw [settle_prcAt, hport, settle_cruAt, settle_aduAt, enterDrain_aduAt, if_pos rfl, State.cruAt, hcru]
      refine ⟨rfl, rfl, rfl, rfl, rfl, rfl, enterDrain_orders h hst, fun i e he hp => ?_⟩
      have hentry := enterDrain_entry? h he hp
      rw [settle_rtb, hentry]
      split
      · next hheld =>
        obtain ⟨r, hr⟩ := (h.entryOk he).gated (by rcases hheld with hheld | hheld <;> rw [hheld] <;> rfl)
        obtain ⟨hbound, _, _⟩ := h.gate_of_entry he hr
        have hin := (State.booksOk_iff.mp h).1.mem_portGates p he hp hr
        have hgate : (enterDrain p s).gpm.gate r.gate = (s.gpm.gate r.gate).released := by
          rw [enterDrain_gpm h hst, Gpm.releaseGates_gate, if_pos hin]
        have hsettled : (settle (enterDrain p s)).gpm.gate r.gate = (s.gpm.gate r.gate).released :=
          (settle_gate_of_no_add (by rw [hgate]; rfl)).trans hgate
        refine ⟨by rw [Entry.released, if_pos hheld], r, hr, ?_, hsettled⟩
        rw [hsettled]
        exact hbound
      · next hfree => rw [Entry.released, if_neg hfree] }

/-- The end of the current step (R99, R115, R116). -/
theorem stepEnded_settle (byGuard : Bool) (h : s.booksOk) (hst : (s.prcAt p).state = .relief) :
    StepEnded p byGuard s (settle (endStep p byGuard s)) := by
  unfold endStep
  dsimp only
  split
  · next hlast => exact stepEnded_next byGuard h hst hlast
  · next hlast => exact stepEnded_drain byGuard h hst hlast

end

/-! ### The accepted report in RELIEF (R113 to R115, R157 to R161) -/

section
variable {p : Port} {s : State}

theorem currentStep_modPrc (f : PrcPort → PrcPort) (hprogram : (f (s.prcAt p)).episode.program = (s.prcAt p).episode.program)
    (hindex : (f (s.prcAt p)).episode.stepIndex = (s.prcAt p).episode.stepIndex) :
    (s.modPrc p f).currentStep p = s.currentStep p := by
  unfold State.currentStep
  simp only [State.prcAt_modPrc_self, State.modPrc_pgs, hprogram, hindex]

/-- The credit of stage C3 at a report (R157, R158). -/
def State.creditAt (s : State) (p : Port) (level delta : Nat) : Nat :=
  creditBudgeted (s.currentStep p) (s.cruAt p).s level delta

theorem State.creditAt_eq (level delta : Nat) : s.creditAt p level delta =
    if (s.currentStep p).budget = 0 then
      if level < (s.currentStep p).lc then delta * (s.currentStep p).fa / (s.currentStep p).fb else 0
    else min (if level < (s.currentStep p).lc then delta * (s.currentStep p).fa / (s.currentStep p).fb else 0)
      ((s.currentStep p).budget - (s.cruAt p).s) := by
  have hgated : creditGated (s.currentStep p) level delta =
      if level < (s.currentStep p).lc then delta * (s.currentStep p).fa / (s.currentStep p).fb else 0 := by
    unfold creditGated creditRaw
    by_cases hl : level < (s.currentStep p).lc
    · rw [if_pos hl, if_neg (Nat.not_le_of_lt hl)]
    · rw [if_neg hl, if_pos (Nat.not_lt.mp hl)]
  unfold State.creditAt creditBudgeted
  rw [hgated]

/-- The credit made of a report and shared out, from the state that the OEV leaves. -/
def State.credited (s : State) (p : Port) (c3 : Nat) : State :=
  (s.modPrc p fun q => { q with
      stale := .running s.now q.config.ts
      episode := { q.episode with credited := sat32 (q.episode.credited + c3) } }).modCru p fun c =>
    { c with s := sat32 (c.s + c3) }

theorem creditReport_eq (level delta : Nat) : creditReport p level delta (restartStale p s) =
    addToPool p (s.creditAt p level delta) (s.credited p (s.creditAt p level delta)) := by
  have hstep : (restartStale p s).currentStep p = s.currentStep p := currentStep_modPrc _ rfl rfl
  have hcredit : creditBudgeted ((restartStale p s).currentStep p) ((restartStale p s).cruAt p).s level delta =
      s.creditAt p level delta := by rw [hstep]; rfl
  unfold creditReport
  rw [hcredit]
  refine congrArg (addToPool p _) ?_
  have hprc : ((restartStale p s).modEpisode p fun e =>
      { e with credited := sat32 (e.credited + s.creditAt p level delta) }) = s.modPrc p fun q => { q with
      stale := .running s.now q.config.ts
      episode := { q.episode with credited := sat32 (q.episode.credited + s.creditAt p level delta) } } :=
    State.modPrc_modPrc ..
  exact congrArg (State.modCru p fun c => { c with s := sat32 (c.s + s.creditAt p level delta) }) hprc

theorem addToPool_cruAt_s (n : Nat) : ((addToPool p n s).cruAt p).s = (s.cruAt p).s := by
  by_cases hfit : (s.cruAt p).a + n ≤ 16777215
  · rw [addToPool_fits hfit, State.cruAt_modCru, if_pos rfl]
  · rw [addToPool_cut_cruAt (Nat.not_le.mp hfit)]

theorem distribute_cruAt_s : ((distribute p s).cruAt p).s = (s.cruAt p).s := by
  by_cases hshare : s.shareOf p < 1024
  · rw [distribute_nothing hshare]
  · rw [distribute_shares (Nat.not_lt.mp hshare), grants_cruAt, if_pos rfl]

theorem distribute_adu : (distribute p s).adu = s.adu := by
  by_cases hshare : s.shareOf p < 1024
  · rw [distribute_nothing hshare]
  · rw [distribute_shares (Nat.not_lt.mp hshare), grants_rest]

theorem addToPool_adu (n : Nat) : (addToPool p n s).adu = s.adu := by
  by_cases hfit : (s.cruAt p).a + n ≤ 16777215
  · rw [addToPool_fits hfit]; rfl
  · rw [addToPool_cut (Nat.not_le.mp hfit)]

theorem credited_cruAt_s (c3 : Nat) :
    ((distribute p (addToPool p c3 (s.credited p c3))).cruAt p).s = sat32 ((s.cruAt p).s + c3) := by
  rw [distribute_cruAt_s, addToPool_cruAt_s, State.credited, State.cruAt_modCru, if_pos rfl]
  rfl

theorem credited_aduAt (c3 : Nat) : (distribute p (addToPool p c3 (s.credited p c3))).aduAt p = s.aduAt p := by
  rw [State.aduAt, distribute_adu, addToPool_adu]
  rfl

theorem alike_credited (c3 : Nat) : Alike s (s.credited p c3) :=
  (alike_modPrc s p _ rfl rfl rfl).trans (alike_modCru _ p _)

/-- What the PRC makes of an accepted report in RELIEF (R113 to R115). -/
theorem reportStages_eq (level delta : Nat) (h : (s.prcAt p).state = .relief) : reportToPrc p level delta s =
    if transferMet (s.currentStep p) (sat32 ((s.cruAt p).s + s.creditAt p level delta)) level (s.aduAt p).waitQ.isEmpty
    then endStep p false (distribute p (addToPool p (s.creditAt p level delta) (s.credited p (s.creditAt p level delta))))
    else distribute p (addToPool p (s.creditAt p level delta) (s.credited p (s.creditAt p level delta))) := by
  have hstep : (restartStale p s).currentStep p = s.currentStep p := currentStep_modPrc _ rfl rfl
  rw [reportToPrc_relief level delta h]
  unfold reportStages
  dsimp only
  rw [creditReport_eq, hstep, credited_cruAt_s, credited_aduAt]

theorem booksOk_credited (c3 : Nat) (h : s.booksOk) : (distribute p (addToPool p c3 (s.credited p c3))).booksOk :=
  (((alike_credited c3).trans (alike_addToPool _ p c3)).trans (alike_distribute _ p)).booksOk h

end

end Sys2Proof.Machine

namespace Sys2Proof.Proofs

open Sys2Proof Sys2Proof.Machine

/-- Settles O48. -/
theorem guardEndsTheStep : Obligations.GuardEndsTheStep := by
  intro s p a b hrun hbooks _ hst hguard hdue
  have hexec : exec (.guardExpiry p) s = .next (settle (guardEvent p s)) := if_pos hrun
  have hfires : s.guardDue p = true := by
    rw [State.guardDue, hst, Timer.due_of_running hguard hdue]
    rfl
  let u := s.modPrc p fun q => { q with
    guard := .stopped, episode := { q.episode with stepsByGuard := q.episode.stepsByGuard + 1 } }
  have hevent : guardEvent p s = endStep p true u := by
    rw [guardEvent, if_pos hfires]
    exact congrArg (endStep p true) (State.modPrc_modPrc ..)
  have hended : StepEnded p true u (settle (endStep p true u)) :=
    stepEnded_settle true ((alike_modPrc s p _ rfl rfl rfl).booksOk hbooks)
      ((congrArg PrcPort.state (State.prcAt_modPrc_self s p _)).trans hst)
  exact ⟨_, by rw [hexec, hevent], (othersKept_modPrc _ rfl).trans hended.others, hended⟩

end Sys2Proof.Proofs
end

section
/-! SUPPORT. PAUSE, RESUME and the port requests out of range (R85, R97, R98, R120, R132, R133), and the accepted report
in RELIEF (R113 to R115). -/

namespace Sys2Proof.Machine

/-! ### A taken request whose effect changes one port -/

/-- The reply of a taken request, and what the lane then begins. -/
theorem fabPump_answered (v : State) (c : Clc) :
    { fabPump v with clc := c } = { settle v with ern := (fabPump v).ern, clc := c } := by
  obtain ⟨h1, h2, h3, h4, h5, h6, h7, h8, h9, h10, h11, h12, h13⟩ := ctlPump_frame (fabPump v)
  unfold settle
  dsimp only
  rw [h1, h2, h3, h4, h5, h6, h7, h8, h9, h10, h11, h12, h13]

theorem exec_taken_settle {c : Instr} {r : CtlFrame} {s v : State} {b : List Byte} (h : requestOf c = some r)
    (hk : kindUnknown c = true) (ht : Takes s r) (he : effectOf c { s with clc := s.clc.taken } = (v, b))
    (hclc : v.clc = s.clc.taken) : exec c s = .next
      { settle v with ern := (fabPump v).ern, clc := s.clc.answered ⟨replyKind r.kind, r.tag, b⟩ } :=
  (exec_taken h hk ht he hclc).trans (congrArg _ (fabPump_answered v _))

theorem booksOk_clc {s : State} (c : Clc) (h : s.booksOk) : State.booksOk { s with clc := c } :=
  ⟨h.table, h.lists, h.entries, h.held, h.bound, h.unbound, h.waiting, h.admitted⟩

theorem OthersKept.with_line {p : Port} {s u t : State} {e : Ern} {c d : Clc} (hu : u = { s with clc := d })
    (h : OthersKept p u t) : OthersKept p s { t with ern := e, clc := c } := by
  subst hu
  exact h

theorem Refilled.with_line {p : Port} {kept queue : List Slot} {s u t : State} {e : Ern} {c d : Clc}
    (hu : u = { s with clc := d }) (h : Refilled p kept queue u t) :
    Refilled p kept queue s { t with ern := e, clc := c } := by
  subst hu
  exact ⟨h.admitted, h.waiting, h.rated, h.orders⟩

theorem settle_refillCount (v : State) (p : Port) (k : Nat) (queue : List Slot) :
    (settle v).refillCount p k queue = v.refillCount p k queue := by
  simp only [State.refillCount, settle_prcAt, settle_currentStep]

/-! ### PAUSE and RESUME -/

section
variable {s : State} {p : Port}

/-- The port as PAUSE leaves it (R97). -/
def PrcPort.paused (now : Nat) (q : PrcPort) : PrcPort :=
  { q with
    state := .paused, guard := q.guard.freeze now, episode := { q.episode with clock := ⟨q.episode.clock.read now, none⟩ } }

/-- The port as RESUME leaves it, before the refill (R98). -/
def PrcPort.resumed (now : Nat) (q : PrcPort) : PrcPort :=
  { q with
    state := .relief, guard := q.guard.thaw now, episode := { q.episode with clock := ⟨q.episode.clock.counted, some now⟩ } }

/-- With an episode, the timers of a port without one do not run (Table 6-3). -/
theorem PrcPort.timersOk.between_episodes {q : PrcPort} (h : q.timersOk) (hst : q.state = .relief ∨ q.state = .paused) :
    q.qualified = false ∧ q.debounce = .stopped ∧ q.drain = .stopped ∧ q.cooldown = .stopped := by
  refine ⟨h.not_qualified ?_, h.debounce_stopped ?_, h.drain_stopped ?_, h.cooldown_stopped ?_⟩ <;>
    rcases hst with hst | hst <;> rw [hst] <;> nofun

theorem pauseOn_eq (h : (s.prcAt p).timersOk) (hst : (s.prcAt p).state = .relief) :
    pauseOn p s = (s.modPrc p (PrcPort.paused s.now), [0]) := by
  obtain ⟨hqual, hdebounce, hdrain, hcooldown⟩ := h.between_episodes (.inl hst)
  unfold pauseOn State.enterPort
  rw [if_pos hst, State.modPrc_modPrc]
  refine Prod.ext (State.modPrc_congr s p _ _ ?_) rfl
  rw [PrcPort.enter_paused]
  simp only [PrcPort.paused, hqual, hdebounce, hdrain, hcooldown]
  rfl

theorem resumeOn_eq (h : (s.prcAt p).timersOk) (hst : (s.prcAt p).state = .paused) : resumeOn p s =
    (rerateIfChanged p (s.admittedCount p) (refill p (s.modPrc p (PrcPort.resumed s.now))), [0]) := by
  obtain ⟨hqual, hdebounce, hdrain, hcooldown⟩ := h.between_episodes (.inr hst)
  unfold resumeOn State.enterPort
  rw [if_pos hst, State.modPrc_modPrc]
  refine Prod.ext (congrArg (fun u => rerateIfChanged p _ (refill p u)) (State.modPrc_congr s p _ _ ?_)) rfl
  rw [PrcPort.enter_relief]
  simp only [PrcPort.resumed, hqual, hdebounce, hdrain, hcooldown]
  rfl

theorem resumed_currentStep : (s.modPrc p (PrcPort.resumed s.now)).currentStep p = s.currentStep p :=
  currentStep_modPrc _ rfl rfl

theorem rerateIfChanged_same {u : State} {k : Nat} (h : u.admittedCount p = k) : rerateIfChanged p k u = u := if_pos h

theorem rerateIfChanged_changed {u : State} {k : Nat} (h : u.admittedCount p ≠ k) :
    rerateIfChanged p k u = rerate p u := if_neg h

/-- RESUME where the width is filled or none waits (R98, R132). -/
theorem resumeOn_full (h : (s.prcAt p).timersOk) (hst : (s.prcAt p).state = .paused)
    (hfull : (s.currentStep p).width ≤ s.admittedCount p ∨ (s.aduAt p).waitQ = []) :
    resumeOn p s = (s.modPrc p (PrcPort.resumed s.now), [0]) := by
  have hrefill : refill p (s.modPrc p (PrcPort.resumed s.now)) = s.modPrc p (PrcPort.resumed s.now) :=
    refill_eq_self fun _ => by rw [resumed_currentStep]; exact hfull
  have hsame : (s.modPrc p (PrcPort.resumed s.now)).admittedCount p = s.admittedCount p := rfl
  rw [resumeOn_eq h hst, hrefill, rerateIfChanged_same hsame]

theorem resumed_books (h : s.booksOk) (hst : (s.prcAt p).state = .paused) :
    (s.modPrc p (PrcPort.resumed s.now)).booksOk :=
  (keptAt_modPrc p s _ fun hb i e he hp => by
    have hocc := hb.occurs he
    rw [hp, hst] at hocc
    exact EntryState.occursIn_paused e.state ▸ hocc).books h

/-- What a refill after RESUME leaves at the end of the event. -/
theorem RefillMade.resumed {v : State} {c d : Clc} {e : Ern}
    (h : RefillMade p (State.modPrc p (PrcPort.resumed s.now) { s with clc := d }) v) :
    let t : State := { settle v with ern := e, clc := c }
    OthersKept p s t ∧
      t.prcAt p = { s.prcAt p with
        state := .relief
        guard := (s.prcAt p).guard.thaw s.now
        episode := Episode.admitting (t.refillCount p (s.admittedCount p) (s.aduAt p).waitQ)
          { (s.prcAt p).episode with clock := ⟨(s.prcAt p).episode.clock.counted, some s.now⟩ } } ∧
      Refilled p (s.aduAt p).admitted (s.aduAt p).waitQ s t ∧ t.cru = s.cru ∧ t.oev = s.oev ∧ t.clc = c := by
  intro t
  have hothers : OthersKept p { s with clc := d } (settle v) :=
    ((othersKept_modPrc _ rfl).trans h.others).trans othersKept_settle
  have hrefilled : Refilled p (s.aduAt p).admitted (s.aduAt p).waitQ { s with clc := d } (settle v) :=
    h.refilled ⟨rfl, rfl, rfl⟩ h.gates
  have hport := h.port
  rw [State.prcAt_modPrc_self, ← settle_refillCount, ← settle_prcAt] at hport
  exact ⟨hothers.with_line rfl, hport, hrefilled.with_line rfl, (settle_cru v).trans h.cru, (settle_oev v).trans h.oev,
    rfl⟩

/-- A refill that admits at least one member raises k. -/
theorem refill_raises {u : State} (h : u.booksOk) (hst : (u.prcAt p).state = .relief)
    (hroom : u.admittedCount p < (u.currentStep p).width) (hwait : (u.aduAt p).waitQ ≠ []) :
    (refill p u).admittedCount p ≠ u.admittedCount p := by
  have hone := List.length_pos_iff.mpr hwait
  rw [State.admittedCount, refill_queues h, State.refillCount, if_pos hst]
  simp only [List.length_append, List.length_take]
  unfold State.admittedCount at hroom ⊢
  omega

/-- RESUME where members wait and the width lets in (R98, R132, R133). -/
theorem resumeOn_refills (hbooks : s.booksOk) (h : (s.prcAt p).timersOk) (hst : (s.prcAt p).state = .paused)
    (hroom : s.admittedCount p < (s.currentStep p).width) (hwait : (s.aduAt p).waitQ ≠ []) :
    resumeOn p s = (rerate p (refill p (s.modPrc p (PrcPort.resumed s.now))), [0]) := by
  have hraises : (refill p (s.modPrc p (PrcPort.resumed s.now))).admittedCount p ≠ s.admittedCount p :=
    refill_raises (p := p) (resumed_books hbooks hst) (by rw [State.prcAt_modPrc_self]; rfl)
      (by rw [resumed_currentStep]; exact hroom) hwait
  rw [resumeOn_eq h hst, rerateIfChanged_changed hraises]

end

/-! ### Port requests out of range -/

theorem withPort_range {b : List Byte} (h : 48 ≤ fieldAt b 0 1) (f : Port → State → Effect) (u : State) :
    withPort f b u = (u, [5]) := by
  unfold withPort bodyPort
  rw [dif_neg (by omega)]
  rfl

theorem knownKind_of_port : ∀ k ∈ [0x20#8, 0x21, 0x22, 0x23, 0x24, 0x25, 0x26, 0x27], knownKind k = true := by decide

/-- Every port request refuses a port number above 47. -/
theorem effectOf_range {i : Instr} {r : CtlFrame} (hr : requestOf i = some r) (hw : wellFormed i = true)
    (hk : r.kind ∈ [0x20#8, 0x21, 0x22, 0x23, 0x24, 0x25, 0x26, 0x27])
    (hlen : bodyLength r.kind r.body = some r.body.length) (hport : 48 ≤ fieldAt r.body 0 1) (u : State) :
    effectOf i u = (u, [5]) := by
  have hchecked (f : Port → State → Effect) : checked r.kind r.body (withPort f) u = (u, [5]) := by
    rw [checked_of_length hlen rfl]
    exact withPort_range hport f u
  cases i
  case setPort tag b => cases hr; exact hchecked (setPortOn b)
  case getPort tag b => cases hr; exact hchecked getPortOn
  case arm tag b => cases hr; exact hchecked armOn
  case disarm tag b => cases hr; exact hchecked disarmOn
  case startRelief tag b => cases hr; exact hchecked (startReliefChecked b)
  case stopRelief tag b => cases hr; exact hchecked stopReliefOn
  case pause tag b => cases hr; exact hchecked pauseOn
  case resume tag b => cases hr; exact hchecked resumeOn
  case unknownRequest kind tag b =>
    cases hr
    have hknown : knownKind kind = true := knownKind_of_port kind hk
    have hkind := wellFormed_kindUnknown hw
    rw [kindUnknown, hknown] at hkind
    exact nomatch hkind
  all_goals cases hr
  all_goals simp at hk

end Sys2Proof.Machine

namespace Sys2Proof.Proofs

open Sys2Proof Sys2Proof.Machine

/-- Settles O50. -/
theorem pauseAndResume : Obligations.PauseAndResume := by
  refine ⟨fun s p tag pb hlane hok hport => ⟨fun ht hst => ?_, fun ht hst hfull => ?_⟩,
    fun s p tag pb hbooks hok hport ht hst hroom hwait => ?_, fun s i r hlane hr ht hk hlen hw hport => ?_⟩
  · have heffect : effectOf (.pause tag [pb]) { s with clc := s.clc.taken } = pauseOn p { s with clc := s.clc.taken } :=
      withPort_eq ((fieldAt_cons_zero pb []).trans hport) pauseOn _
    exact exec_answers (c := .pause tag [pb]) (t := s.modPrc p (PrcPort.paused s.now)) rfl rfl ht hlane
      (heffect.trans (pauseOn_eq (s := { s with clc := s.clc.taken }) hok hst))
  · have heffect : effectOf (.resume tag [pb]) { s with clc := s.clc.taken } = resumeOn p { s with clc := s.clc.taken } :=
      withPort_eq ((fieldAt_cons_zero pb []).trans hport) resumeOn _
    exact exec_answers (c := .resume tag [pb]) (t := s.modPrc p (PrcPort.resumed s.now)) rfl rfl ht hlane
      (heffect.trans (resumeOn_full (s := { s with clc := s.clc.taken }) hok hst hfull))
  · have heffect : effectOf (.resume tag [pb]) { s with clc := s.clc.taken } = resumeOn p { s with clc := s.clc.taken } :=
      withPort_eq ((fieldAt_cons_zero pb []).trans hport) resumeOn _
    have hbooks' := booksOk_clc s.clc.taken hbooks
    have hresume := resumeOn_refills (s := { s with clc := s.clc.taken }) hbooks' hok hst hroom hwait
    have hmade := refillMade_rerate (p := p) (resumed_books hbooks' hst)
    generalize rerate p (refill p _) = v at hresume hmade
    refine ⟨_, exec_taken_settle (c := .resume tag [pb]) rfl rfl ht (heffect.trans hresume) hmade.quiet.clc, ?_⟩
    exact RefillMade.resumed (s := s) (d := s.clc.taken) hmade
  · rw [exec_unchanged hr (wellFormed_kindUnknown hw) ht hlane (effectOf_range hr hw hk hlen hport _)]
    rw [replyKind_of_known (knownKind_of_port _ hk)]

/-- Settles O33. -/
theorem reportInReliefMakesCredit : Obligations.ReportInReliefMakesCredit := by
  intro s p seq cells d ht hst hacc st delta level c2 c3 met m
  let w := (s.withoutRecord (.occupancy p seq cells d)).afterReport p seq cells d
  have hcredit : w.creditAt p level delta = c3 := State.creditAt_eq (s := w) level delta
  have hmet : transferMet st (sat32 ((s.cruAt p).s + c3)) level (s.aduAt p).waitQ.isEmpty = true ↔ met := by
    simp only [transferMet, met]
    cases st.kind <;> simp
  have hstages : reportToPrc p level delta w =
      if transferMet st (sat32 ((s.cruAt p).s + c3)) level (s.aduAt p).waitQ.isEmpty then endStep p false m else m := by
    have := reportStages_eq (s := w) (p := p) level delta hst
    rw [hcredit] at this
    exact this
  refine ⟨fun hs hready hno hfit => ?_, fun hno => ?_, fun hyes hbooks _ => ?_⟩
  · rw [exec_report_accepted ht hacc (hstages.trans (if_neg fun h => hno (hmet.mp h)))]
    have hpool : addToPool p c3 (w.credited p c3) = (w.credited p c3).modCru p fun c => { c with a := c.a + c3 } :=
      addToPool_fits (by rw [State.credited, State.cruAt_modCru, if_pos rfl]; exact hfit)
    have hshare : State.shareOf ((w.credited p c3).modCru p fun c => { c with a := c.a + c3 }) p = 0 := by
      have hmembers : State.readyMembers ((w.credited p c3).modCru p fun c => { c with a := c.a + c3 }) p = [] := hready
      rw [State.shareOf, hmembers, List.length_nil, Nat.div_zero]
    have hm : m = (w.modPrc p fun q => { q with
          stale := .running s.now q.config.ts
          episode := { q.episode with credited := sat32 (q.episode.credited + c3) } }).modCru p fun c =>
          ⟨c.a + c3, sat32 (c.s + c3)⟩ := by
      have hgrants : m = (w.credited p c3).modCru p fun c => { c with a := c.a + c3 } := by
        show distribute p (addToPool p c3 (w.credited p c3)) = _
        rw [hpool, distribute_nothing (by rw [hshare]; decide)]
      exact hgrants.trans (State.modCru_modCru ..)
    rw [hm]
    exact next_settle_eq hs
  · exact exec_report_accepted ht hacc (hstages.trans (if_neg fun h => hno (hmet.mp h)))
  · have hbooksw : w.booksOk :=
      ⟨hbooks.table, hbooks.lists, hbooks.entries, hbooks.held, hbooks.bound, hbooks.unbound, hbooks.waiting,
        hbooks.admitted⟩
    have hstm : (m.prcAt p).state = .relief :=
      ((((alike_credited c3).trans (alike_addToPool _ p c3)).trans (alike_distribute _ p)).ports p).1.trans hst
    exact ⟨_, exec_report_accepted ht hacc (hstages.trans (if_pos (hmet.mpr hyes))),
      stepEnded_settle false (booksOk_credited c3 hbooksw) hstm⟩

end Sys2Proof.Proofs
end

section
/-! SUPPORT. Hold Pressure on a WAITING entry: the admission with the overdraft mark, or the bypass (R125, R128, R133,
R134, R144, R145), with what the gate changes leave of the Gate Pool Manager's lists and counts. -/

namespace Sys2Proof.Machine

/-! ### What only binds, frees and reports change in the Gate Pool Manager -/

/-- The free list and the counts of frees, of valid Hold Pressure and of stale reports. -/
def Gpm.stock (m : Gpm) : List GateNo × Nat × Nat × Nat := (m.free, m.frees, m.validHold, m.staleReports)

section
variable (m : Gpm) (g : GateNo)

theorem Gpm.enter_stock : (Gpm.enter g m).stock = m.stock := by
  unfold Gpm.enter
  split <;> rfl

theorem Gpm.want_stock (mode : GateMode) (d : Nat) (r : Resolution) : (m.want g mode d r).stock = m.stock := by
  unfold Gpm.want
  dsimp only
  split
  · rfl
  · exact Gpm.enter_stock _ _

theorem Gpm.takeBatch_stock : m.takeBatch.stock = m.stock := by
  have key (l : List GateNo) (u : Gpm) : (l.foldl (fun m g => m.modGate g Gate.taken) u).stock = u.stock := by
    induction l generalizing u with
    | nil => rfl
    | cons h l ih => exact ih _
  exact key m.batch m

theorem Gpm.freeGate_stock (h : (m.gate g).bound ≠ none) :
    (m.freeGate g).stock = (m.free ++ [g], sat32 (m.frees + 1), m.validHold, m.staleReports) := by
  obtain ⟨hfree, _, hfrees⟩ := Gpm.freeGate_lists h
  rw [Gpm.stock, hfree, hfrees, Gpm.freeGate_rest m g]

/-- A freed gate has lost its binding, and its FREE order is on its way (R144). -/
theorem Gpm.freeGate_enqueued (h : (m.gate g).bound ≠ none) : m.Enqueued (m.freeGate g) := by
  obtain ⟨_, hfifo, _⟩ := Gpm.freeGate_lists h
  refine .enter g hfifo (fun k hk => by rw [Gpm.freeGate_gate h, if_neg hk]) fun ⟨_, hbound, _⟩ => ?_
  rw [Gpm.freeGate_gate h, if_pos rfl] at hbound
  exact h hbound.symm

end

theorem rerate_stock (p : Port) (s : State) : (rerate p s).gpm.stock = s.gpm.stock := by
  have key (d : Nat) (r : Resolution) (l : List GateNo) (m : Gpm) :
      (l.foldl (Gpm.rerateGate d r) m).stock = m.stock := by
    induction l generalizing m with
    | nil => rfl
    | cons g l ih =>
      rw [List.foldl_cons, ih]
      unfold Gpm.rerateGate
      split
      · exact m.want_stock ..
      · rfl
  rw [rerate_eq]
  exact key ..

theorem settle_stock (s : State) : (settle s).gpm.stock = s.gpm.stock := by
  rcases State.laneTakes_gpm (laneTakes_settle (s := s) ⟨rfl, rfl, rfl⟩) with h | h <;> rw [h]
  exact s.gpm.takeBatch_stock

theorem admitWaiting_stock (p : Port) (mark : Bool) (i : Slot) (s : State) :
    (admitWaiting p mark i s).gpm.stock = s.gpm.stock := by
  have hgate : (admitWaiting p mark i s).gpm =
      (onGateOf i (fun g m => m.want g .shaped (m.gate g).divisor (s.currentStep p).res) s).gpm := rfl
  rw [hgate]
  unfold onGateOf
  split
  · rfl
  · exact Gpm.want_stock ..

theorem admitWaiting_bypasses (p : Port) (mark : Bool) (i : Slot) (s : State) :
    (admitWaiting p mark i s).adu.bypasses = s.adu.bypasses := by
  have hgate : (admitWaiting p mark i s).adu.bypasses =
      (onGateOf i (fun g m => m.want g .shaped (m.gate g).divisor (s.currentStep p).res) s).adu.bypasses := rfl
  rw [hgate]
  unfold onGateOf
  split <;> rfl

theorem refill_stock (p : Port) (s : State) : (refill p s).gpm.stock = s.gpm.stock := by
  have key (l : List Slot) (u : State) : (admitAll p l u).gpm.stock = u.gpm.stock := by
    induction l generalizing u with
    | nil => rfl
    | cons i l ih => rw [admitAll_cons, ih, admitWaiting_stock]
  by_cases hst : (s.prcAt p).state = .relief
  · rw [refill_eq_admitAll p s hst, key]
  · rw [refill_of_not_relief p s hst]

/-! ### The two outcomes, settled -/

section
variable {u : State} {p : Port} {i : Slot} {e : Entry} {r : GateRef} (h : u.booksOk) (he : u.rtb.entry? i = some e)
  (hp : e.port = p) (hst : e.state = .waiting) (hr : e.gate = some r)
include h he hp hst hr

/-- A waiting entry admitted with the overdraft mark, and the re-rating that follows (R125, R133, R134). -/
theorem admitOverdraft_settled : ∃ t, t = settle (rerate p (admitWaiting p true i u)) ∧
    AtEntry p i u (rerate p (admitWaiting p true i u)) ∧
    OthersKept p u t ∧ t.aduAt p = ⟨(u.aduAt p).waitQ.erase i, (u.aduAt p).admitted ++ [i]⟩ ∧
    (∃ added, OrdersMade added u t) ∧ t.gpm.stock = u.gpm.stock ∧
    t.rtb.entry? i = some { e with state := .admitted, dry := some true, overdraft := some true } ∧ t.rated p ∧
    (t.gpm.gate r.gate).mode = .shaped ∧ (t.gpm.gate r.gate).bound = (u.gpm.gate r.gate).bound ∧
    (t.gpm.gate r.gate).epoch = (u.gpm.gate r.gate).epoch ∧
    (t.gpm.gate r.gate).divisor = min 4095 (((u.currentStep p).pt + 1) * (u.admittedCount p + 1) - 1) ∧
    (t.prcAt p).episode = { (u.prcAt p).episode with
      admissions := sat32 ((u.prcAt p).episode.admissions + 1)
      overdrafts := sat32 ((u.prcAt p).episode.overdrafts + 1) } ∧ t.adu.bypasses = u.adu.bypasses := by
  obtain ⟨hentry, hadu, hepisode, _⟩ := admitWaiting_effects (p := p) true he hr
  have hat : AtEntry p i u (rerate p (admitWaiting p true i u)) := (atEntry_admitWaiting true).trans (atEntry_rerate p i _)
  have hbooks := admitWaiting_books (p := p) true h he hp hst
  have hshapes : u.gpm.Shapes (admitWaiting p true i u).gpm := admitWaiting_shapes h he hst true
  have hrated : (settle (rerate p (admitWaiting p true i u))).rated p := (hbooks.rated_rerate p).settle
  have hentryt : (settle (rerate p (admitWaiting p true i u))).rtb.entry? i =
      some { e with state := .admitted, dry := some true, overdraft := some true } := by
    rw [settle_rtb, rerate_rtb, hentry]
  have hadut : (settle (rerate p (admitWaiting p true i u))).aduAt p =
      ⟨(u.aduAt p).waitQ.erase i, (u.aduAt p).admitted ++ [i]⟩ := by rw [settle_aduAt, rerate_aduAt, hadu]
  have hstep : (settle (rerate p (admitWaiting p true i u))).currentStep p = u.currentStep p := by
    rw [settle_currentStep, hat.currentStep]
  obtain ⟨hepoch, hbound⟩ := hshapes.rerate_keeps p r.gate
  obtain ⟨sepoch, sbound, _⟩ := settle_sameWanted (rerate p (admitWaiting p true i u)) r.gate
  obtain ⟨g, hg, hmode, _, hdivisor⟩ := hrated i (by rw [hadut]; simp)
  have hgr : g = r.gate := by
    rw [State.gateOf, hentryt] at hg
    change Option.map (·.gate) e.gate = some g at hg
    rw [hr] at hg
    exact (Option.some.inj hg).symm
  subst hgr
  rw [hstep, State.admittedCount, hadut, List.length_append] at hdivisor
  refine ⟨_, rfl, hat, (hat.onlyPort he hp).trans othersKept_settle, hadut,
    ordersMade_settle (by rw [hat.quiet.flc]; exact ⟨rfl, rfl, rfl⟩) (hshapes.rerate p), ?_, hentryt, hrated, hmode,
    sbound.trans hbound, sepoch.trans hepoch, hdivisor, ?_, ?_⟩
  · rw [settle_stock, rerate_stock, admitWaiting_stock]
  · rw [settle_prcAt, rerate_prcAt, hepisode]
    rfl
  · rw [settle_adu, rerate_rest]
    exact admitWaiting_bypasses ..

omit hst in
/-- A waiting entry bypassed, its gate freed (R128, R134, R144). -/
theorem bypassWaiting_settled : ∃ t, t = settle (bypass p i u) ∧ AtEntry p i u (bypass p i u) ∧
    OthersKept p u t ∧ t.aduAt p = ⟨(u.aduAt p).waitQ.erase i, (u.aduAt p).admitted⟩ ∧
    (∃ added, OrdersMade added u t) ∧
    t.gpm.stock = (u.gpm.free ++ [r.gate], sat32 (u.gpm.frees + 1), u.gpm.validHold, u.gpm.staleReports) ∧
    t.rtb.entry? i = some { e with state := .bypassed, gate := none, dry := none, overdraft := none } ∧
    t.gpm.gate r.gate = (u.gpm.gate r.gate).freed ∧ t.adu.bypasses = sat32 (u.adu.bypasses + 1) ∧
    (t.prcAt p).episode = { (u.prcAt p).episode with bypassed := sat32 ((u.prcAt p).episode.bypassed + 1) } ∧
    t.announces .bypass (some p) (u.prcAt p).episode.number (sat32 ((u.prcAt p).episode.bypassed + 1)) u.stamp := by
  obtain ⟨hentry, hadu, hepisode, hbypasses, hgpm, hern⟩ := bypass_gated (p := p) he hr
  have hat := atEntry_bypass p i u
  obtain ⟨hb, _⟩ := h.gate_of_entry he hr
  have hbound : (u.gpm.gate r.gate).bound ≠ none := by rw [hb]; nofun
  have hgate : (bypass p i u).gpm.gate r.gate = (u.gpm.gate r.gate).freed := by
    rw [hgpm, Gpm.freeGate_gate hbound, if_pos rfl]
  have hheld : (bypass p i u).ern.Holds .bypass (some p) (u.prcAt p).episode.number
      (sat32 ((u.prcAt p).episode.bypassed + 1)) u.stamp := by rw [hern]; exact Ern.holds_raise
  refine ⟨_, rfl, hat, (hat.onlyPort he hp).trans othersKept_settle, ?_,
    ordersMade_settle (by rw [hat.quiet.flc]; exact ⟨rfl, rfl, rfl⟩) (by rw [hgpm]; exact u.gpm.freeGate_enqueued _ hbound),
    ?_, ?_, ?_, ?_, ?_, hheld.settle nofun⟩
  · rw [settle_aduAt, hadu]
  · rw [settle_stock, hgpm, Gpm.freeGate_stock _ _ hbound]
  · rw [settle_rtb, hentry]
  · exact (settle_gate_of_no_add (by rw [hgate]; rfl)).trans hgate
  · rw [settle_adu, hbypasses]
  · rw [settle_prcAt, hepisode]

end

/-! ### A valid Hold Pressure for a WAITING entry (R134) -/

section
variable {s : State} {i : Slot} {e : Entry} {held : BitVec 24}

theorem holdPressureOn_waiting (he : s.rtb.entry? i = some e) (hst : e.state = .waiting) :
    let u := s.modEntry i fun x => { x with lastHeld := some held }
    holdPressureOn i held s =
      if (s.prcAt e.port).state = .relief ∧ u.overdraftCount e.port < 8 then rerate e.port (admitWaiting e.port true i u)
      else bypass e.port i u := by
  unfold holdPressureOn
  rw [he]
  exact if_pos hst

/-- The gate that is BOUND to a key is held by the entry with that key. -/
theorem State.booksOk.gate_of_key (h : s.booksOk) {g : GateNo} {k : Key} (hk : (s.gpm.gate g).bound = some k)
    (he : s.rtb.entry? i = some e) (hhash : e.hash = k.hash) (hport : e.port = k.port) :
    e.gate = some ⟨g, (s.gpm.gate g).epoch⟩ := by
  obtain ⟨j, f, r, hf, hfhash, hfport, hr, hrg⟩ := h.bound g k hk
  have hij := h.table.slot_of_key he hf (hhash.trans hfhash.symm) (hport.trans hfport.symm)
  subst hij
  obtain rfl := Option.some.inj (he.symm.trans hf)
  obtain ⟨_, hepoch, _⟩ := h.held _ e r he hr
  rw [hr, ← hrg, hepoch]

end

end Sys2Proof.Machine

namespace Sys2Proof.Proofs

open Sys2Proof Sys2Proof.Machine

/-- Settles O42. -/
theorem holdPressureOnWaiting : Obligations.HoldPressureOnWaiting := by
  intro s g ep h held k i e ht hbooks hk hh hep hl hst p x
  obtain ⟨he, hhash, hport⟩ := hbooks.lookup_some hl
  have hgate := hbooks.gate_of_key hk he (hhash.trans hh.symm) hport
  let w : State := { s.withoutRecord (.holdPressure g ep h held) with
    gpm := { s.gpm with validHold := sat32 (s.gpm.validHold + 1) } }
  let u : State := w.modEntry i fun y => { y with lastHeld := some held }
  have hwbooks : w.booksOk := (alike_counts s rfl ⟨rfl, rfl, rfl⟩ rfl rfl rfl : Alike s w).booksOk hbooks
  have halike : Alike w u := alike_modEntry w i _ (fun _ _ => rfl) fun _ => ⟨rfl, rfl⟩
  have hubooks : u.booksOk := halike.booksOk hwbooks
  have hue : u.rtb.entry? i = some { e with lastHeld := some held } :=
    (Rtb.entry?_modEntry_self ..).trans (congrArg (Option.map _) he)
  have hmarks : u.overdraftCount p = s.overdraftCount p := (halike.portSame p).overdraftCount hwbooks
  have hevent : exec (.holdPressure g ep h held) s = .next (settle
      (if (s.prcAt p).state = .relief ∧ s.overdraftCount p < 8 then rerate p (admitWaiting p true i u)
      else bypass p i u)) := by
    rw [exec_holdPressure_taken ht, takeHoldPressure_valid (s := s.withoutRecord _) hk hl hh hep]
    have hon := holdPressureOn_waiting (s := w) (held := held) he hst
    rw [hport] at hon
    rw [← hmarks]
    exact congrArg (fun z => Host.Outcome.next (settle z)) hon
  have hother : OthersKept p w u := (atEntry_modEntry p i w (fun y => { y with lastHeld := some held }) fun _ => rfl).onlyPort he hport
  have hentries {t : State} (hat : AtEntry p i u t) (j : Slot) (hj : j ≠ i) :
      (settle t).rtb.entry? j = s.rtb.entry? j := by
    rw [settle_rtb, hat.entries j hj]
    exact Rtb.entry?_modEntry_ne _ _ hj
  have hqueue : i ∉ (s.aduAt p).waitQ.erase i := fun hi => ((hbooks.waiting p).1.mem_erase_iff.mp hi).1 rfl
  obtain ⟨_, hdry, hmark, _⟩ := hbooks.entryOk he
  have hbare : e.dry = none ∧ e.overdraft = none := by
    constructor <;> refine Option.not_isSome_iff_eq_none.mp fun hsome => ?_
    · exact nomatch hst.symm.trans (hdry.mp hsome)
    · exact nomatch hst.symm.trans (hmark.mp hsome)
  by_cases hroom : (s.prcAt p).state = .relief ∧ s.overdraftCount p < 8
  · rw [if_pos hroom] at hevent
    obtain ⟨t, rfl, hat, hothers, hadu, horders, hstock, hentry, hrated, hmode, hbound, hepoch, hdivisor, hepisode,
      hbypasses⟩ := admitOverdraft_settled hubooks hue hport hst hgate
    simp only [Gpm.stock, Prod.mk.injEq] at hstock
    obtain ⟨hfree, _, hvalid, hstale⟩ := hstock
    refine ⟨_, hevent, hother.trans hothers, ?_, congrArg AduPort.waitQ hadu, by rw [hadu]; exact hqueue, horders, hvalid,
      hstale, (settle_cru _).trans hat.cru, (settle_oev _).trans hat.oev, hentries hat, ?_⟩
    · rw [settle_prcAt]
      exact hat.port
    · rw [if_pos hroom]
      exact ⟨hentry, congrArg AduPort.admitted hadu, hrated, hmode, hbound.trans hk, hepoch.trans hep, hdivisor, hepisode,
        hbypasses, hfree⟩
  · rw [if_neg hroom] at hevent
    obtain ⟨t, rfl, hat, hothers, hadu, horders, hstock, hentry, hfreed, hbypasses, hepisode, hnotice⟩ :=
      bypassWaiting_settled hubooks hue hport hgate
    simp only [Gpm.stock, Prod.mk.injEq] at hstock
    obtain ⟨hfree, hfrees, hvalid, hstale⟩ := hstock
    refine ⟨_, hevent, hother.trans hothers, ?_, congrArg AduPort.waitQ hadu, by rw [hadu]; exact hqueue, horders, hvalid,
      hstale, (settle_cru _).trans hat.cru, (settle_oev _).trans hat.oev, hentries hat, ?_⟩
    · rw [settle_prcAt]
      exact hat.port
    · rw [if_neg hroom]
      refine ⟨hentry.trans ?_, by rw [hadu]; rfl, hfreed, hfree, hfrees, hbypasses, hepisode, hnotice⟩
      simp [hbare]

end Sys2Proof.Proofs
end

section
/-! SUPPORT. A Flow End of an entry with a gate: the entry leaves the table and its collection, its gate is freed, and
for an ADMITTED entry refund, refill and re-rating take place (R52 to R55, R132, R133, R144, R145, R163, R168). -/

namespace Sys2Proof.Machine

theorem settle_prc (s : State) : (settle s).prc = s.prc := by rw [settle_rest]

/-! ### What may follow the removal of an entry -/

/-- Between `v` and `z` waiting entries of a port have been admitted and gates re-rated, or nothing has happened. -/
structure Trails (p : Port) (v z : State) : Prop where
  others : OthersKept p v z
  quiet  : Quiet v z
  cru    : z.cru = v.cru
  oev    : z.oev = v.oev
  state  : (z.prcAt p).state = (v.prcAt p).state
  stock  : z.gpm.stock = v.gpm.stock
  gates  : v.gpm.Enqueued z.gpm
  bound  : ∀ g, (z.gpm.gate g).bound = (v.gpm.gate g).bound
  free   : ∀ g, (v.gpm.gate g).mode = .free → z.gpm.gate g = v.gpm.gate g

theorem Trails.refl (p : Port) (v : State) : Trails p v v :=
  ⟨.refl p v, .refl v, rfl, rfl, rfl, rfl, .refl _, fun _ => rfl, fun _ _ => rfl⟩

theorem Trails.refill {p : Port} {v : State} (h : v.booksOk) : Trails p v (rerate p (refill p v)) := by
  have hmade := refillMade_rerate (p := p) h
  have hshapes := (admits_refill (p := p) h).gates
  refine ⟨hmade.others, hmade.quiet, hmade.cru, hmade.oev, by rw [hmade.port], ?_, hmade.gates,
    fun g => (hmade.keeps g).2, fun g hg => ?_⟩
  · rw [rerate_stock, refill_stock]
  · have hsame := hshapes.others g (by rw [hg]; nofun)
    have hno : (v.gpm.gate g).mode ≠ .shaped := by rw [hg]; nofun
    rw [rerate_gate, hsame, Gate.ratedAt, if_neg hno, ite_self]

/-! ### The entry that has gone -/

section
variable {w : State} {p : Port} {i : Slot} {e : Entry} {r : GateRef} {f : AduPort → AduPort} {g : Episode → Episode}

theorem dropEntry_eq (he : w.rtb.entry? i = some e) (hp : e.port = p) (hr : e.gate = some r) :
    dropEntry p i f g w = { w with
      gpm := w.gpm.freeGate r.gate, adu := (w.modAdu p f).adu, prc := (w.modEpisode p g).prc
      rtb := { w.rtb with
        table := (dropEntry p i f g w).rtb.table, arrival := modAt w.rtb.arrival p fun l => l.erase i } } := by
  have hfreed : (w.rtb.modEntry i fun x => { x with gate := none }).entry? i = some { e with gate := none } :=
    (Rtb.entry?_modEntry_self ..).trans (congrArg _ he)
  have hremoved := Rtb.remove_of_entry hfreed
  have hfirst : dropEntry p i f g w = { w with
      gpm := w.gpm.freeGate r.gate, adu := (w.modAdu p f).adu, prc := (w.modEpisode p g).prc
      rtb := (w.rtb.modEntry i fun x => { x with gate := none }).remove i } := by
    unfold dropEntry
    rw [freeGateOf_of_gate he hr]
    rfl
  rw [hfirst, hremoved, hp]
  rfl

theorem dropEntry_aduAt (he : w.rtb.entry? i = some e) (hp : e.port = p) (hr : e.gate = some r) :
    (dropEntry p i f g w).aduAt p = f (w.aduAt p) := by
  rw [dropEntry_eq he hp hr]
  exact State.aduAt_modAdu_self ..

/-- An entry with a gate has gone (R43, R53, R144): between `w` and the end of the event. -/
structure Gone (p : Port) (i : Slot) (r : GateRef) (w t : State) : Prop where
  entry   : t.rtb.entry? i = none
  gate    : t.gpm.gate r.gate = (w.gpm.gate r.gate).freed
  orders  : ∃ added, OrdersMade added w t
  cru     : t.cru = w.cru
  state   : (t.prcAt p).state = (w.prcAt p).state
  ctr     : t.rtb.ctr = w.rtb.ctr
  frees   : t.gpm.frees = sat32 (w.gpm.frees + 1)
  free    : t.gpm.free = w.gpm.free ++ [r.gate]
  others  : ∀ q, q ≠ p → t.prcAt q = w.prcAt q ∧ t.aduAt q = w.aduAt q
  arrival : t.rtb.arrival = modAt w.rtb.arrival p (fun l => l.erase i)
  oev     : t.oev = w.oev
  cmp     : t.cmp = w.cmp
  pgs     : t.pgs = w.pgs
  tmb     : t.tmb = w.tmb

variable (hb : w.booksOk) (he : w.rtb.entry? i = some e) (hp : e.port = p) (hr : e.gate = some r)
  (hf : f (w.aduAt p) = ⟨(w.aduAt p).waitQ.erase i, (w.aduAt p).admitted.erase i⟩)
include hb he hp hr hf

theorem gone_settled {z : State} (hz : Trails p (dropEntry p i f g w) z) : Gone p i r w (settle z) := by
  have hdrop := dropEntry_eq (f := f) (g := g) he hp hr
  have hgone := dropEntry_letsGo (p := p) f g he hf
  have hgpm : (dropEntry p i f g w).gpm = w.gpm.freeGate r.gate := by rw [hdrop]
  obtain ⟨hb', _⟩ := hb.gate_of_entry he hr
  have hbound : (w.gpm.gate r.gate).bound ≠ none := by rw [hb']; nofun
  have hfreed : (dropEntry p i f g w).gpm.gate r.gate = (w.gpm.gate r.gate).freed := by
    rw [hgpm, Gpm.freeGate_gate hbound, if_pos rfl]
  have hgate : z.gpm.gate r.gate = (w.gpm.gate r.gate).freed := (hz.free _ (by rw [hfreed]; rfl)).trans hfreed
  have hqueued : w.gpm.Enqueued z.gpm := by
    refine Gpm.Enqueued.trans (by rw [hgpm]; exact w.gpm.freeGate_enqueued _ hbound) hz.gates fun k hk hsame => ?_
    have hkr : k = r.gate := by_contra fun hne => hk (by rw [hgpm, Gpm.freeGate_gate hbound, if_neg hne]; exact .refl _)
    obtain ⟨_, hkbound, _⟩ := hsame
    rw [hkr, hgate] at hkbound
    exact hbound hkbound.symm
  have hflc : z.flc = w.flc := by rw [hz.quiet.flc, hdrop]
  have hstock := (settle_stock z).trans (hz.stock.trans (by rw [hgpm, Gpm.freeGate_stock _ _ hbound]))
  simp only [Gpm.stock, Prod.mk.injEq] at hstock
  obtain ⟨hfree, hfrees, _⟩ := hstock
  obtain ⟨hports, _⟩ := hz.others
  refine ⟨?_, (settle_gate_of_no_add (by rw [hgate]; rfl)).trans hgate,
    ordersMade_settle (by rw [hflc]; exact ⟨rfl, rfl, rfl⟩) hqueued, ?_, ?_, ?_, hfrees, hfree, fun q hq => ⟨?_, ?_⟩, ?_, ?_,
    ?_, ?_, ?_⟩
  · have hnone := Rtb.entry?_fixed hz.quiet.fixed i
    rw [hgone.now] at hnone
    rw [settle_rtb]
    exact Option.map_eq_none_iff.mp hnone
  · rw [settle_cru, hz.cru, hdrop]
  · rw [settle_prcAt, hz.state, dropEntry_prcAt]
  · rw [settle_rtb, hz.quiet.rtbCtr, hdrop]
  · rw [settle_prcAt, (hports q hq).1, dropEntry_prcAt_ne _ _ hq]
  · rw [settle_aduAt, (hports q hq).2.1, hgone.adu q hq]
  · rw [settle_rtb, hz.quiet.arrival, hdrop]
  · rw [settle_oev, hz.oev, hdrop]
  · rw [settle_cmp, hz.quiet.cmp, hdrop]
  · rw [settle_pgs, hz.quiet.pgs, hdrop]
  · rw [settle_tmb, hz.quiet.tmb, hdrop]

end

/-! ### Flow Ends by the state of the entry -/

/-- A Flow End with its counts made and its refund taken (R52, R54, R55, R163). -/
def State.flowCounted (s : State) (e : Entry) (named : Option GateRef) : State :=
  s.modRtbCtr fun c => { c with
    flowEnds := sat32 (c.flowEnds + 1)
    gateMismatches := if gateMismatch e.gate named then sat32 (c.gateMismatches + 1) else c.gateMismatches }

section
variable {s : State} {p : Port} {i : Slot} {e : Entry} (named : Option GateRef) (left : Nat)

theorem endEntry_counted (f : State → State) (hf : ∀ u, endEntry i e named left u =
    f (if gateMismatch e.gate named then u.modRtbCtr fun c => { c with gateMismatches := sat32 (c.gateMismatches + 1) }
      else u)) :
    endEntry i e named left (s.modRtbCtr fun c => { c with flowEnds := sat32 (c.flowEnds + 1) }) =
      f (s.flowCounted e named) := by
  rw [hf]
  unfold State.flowCounted
  split <;> rfl

theorem endEntry_released (hst : e.state = .released) :
    endEntry i e named left (s.modRtbCtr fun c => { c with flowEnds := sat32 (c.flowEnds + 1) }) =
      dropEntry p i id id (s.flowCounted e named) := by
  rw [← released_eq_dropEntry]
  refine endEntry_counted named left (fun s => (freeGateOf i s).removeEntry i) fun u => ?_
  unfold endEntry
  rw [hst]

variable (hp : e.port = p)
include hp

theorem endEntry_admitted (hst : e.state = .admitted) :
    endEntry i e named left (s.modRtbCtr fun c => { c with flowEnds := sat32 (c.flowEnds + 1) }) =
      rerate p (refill p (dropEntry p i (fun a => { a with admitted := a.admitted.erase i })
        (fun x => { x with completed := sat32 (x.completed + 1) })
        (if refunds e.gate named (s.prcAt p).state then addToPool p left (s.flowCounted e named)
          else s.flowCounted e named))) := by
  subst hp
  refine endEntry_counted named left (endAdmitted i e.port e.gate named left) fun u => ?_
  unfold endEntry
  rw [hst]

theorem endEntry_waiting (hst : e.state = .waiting) :
    endEntry i e named left (s.modRtbCtr fun c => { c with flowEnds := sat32 (c.flowEnds + 1) }) =
      dropEntry p i (fun a => { a with waitQ := a.waitQ.erase i })
        (fun x => { x with endedHeld := sat32 (x.endedHeld + 1) }) (s.flowCounted e named) := by
  subst hp
  refine endEntry_counted named left (endWaiting i e.port) fun u => ?_
  unfold endEntry
  rw [hst]

end

/-! ### The refund (R54, R163, R168) -/

section
variable (p : Port) (n : Nat) (s : State)

/-- The pool changes, and CREDIT_OVERFLOW may be raised. -/
theorem addToPool_rest : addToPool p n s = { s with cru := (addToPool p n s).cru, ern := (addToPool p n s).ern } := by
  by_cases hfit : (s.cruAt p).a + n ≤ 16777215
  · rw [addToPool_fits hfit]; rfl
  · rw [addToPool_cut (Nat.not_le.mp hfit)]

theorem addToPool_cruAt : (addToPool p n s).cruAt p = ⟨min 16777215 ((s.cruAt p).a + n), (s.cruAt p).s⟩ := by
  by_cases hfit : (s.cruAt p).a + n ≤ 16777215
  · rw [addToPool_fits hfit, State.cruAt_modCru, if_pos rfl, Nat.min_eq_right hfit]
  · rw [addToPool_cut_cruAt (Nat.not_le.mp hfit), Nat.min_eq_left (Nat.le_of_lt (Nat.not_le.mp hfit))]

theorem addToPool_cruAt_ne {q : Port} (hq : q ≠ p) : (addToPool p n s).cruAt q = s.cruAt q := by
  by_cases hfit : (s.cruAt p).a + n ≤ 16777215
  · rw [addToPool_fits hfit, State.cruAt_modCru, if_neg hq]
  · have hport : (addToPool p n s).cru.port = modAt s.cru.port p fun c => { c with a := 16777215 } := by
      rw [addToPool_cut (Nat.not_le.mp hfit)]
      rfl
    rw [State.cruAt, hport]
    exact modAt_get_ne _ _ _ _ hq

/-- A refund that is made under a condition: A, the overflow counter and CREDIT_OVERFLOW. -/
theorem refund_effects (b : Bool) : ∃ c m, (if b then addToPool p n s else s) = { s with cru := c, ern := m } ∧
    c.port[p] = ⟨if b then min 16777215 ((s.cruAt p).a + n) else (s.cruAt p).a, (s.cruAt p).s⟩ ∧
    (∀ q, q ≠ p → c.port[q] = s.cruAt q) ∧
    (b = true → 16777215 < (s.cruAt p).a + n →
      c.overflow = sat32 (s.cru.overflow + ((s.cruAt p).a + n - 16777215)) ∧
      m.Holds .creditOverflow (some p) (s.prcAt p).episode.number ((s.cruAt p).a + n - 16777215) s.stamp) ∧
    (¬(b = true ∧ 16777215 < (s.cruAt p).a + n) → c.overflow = s.cru.overflow) := by
  cases b with
  | false => exact ⟨s.cru, s.ern, rfl, rfl, fun _ _ => rfl, nofun, fun _ => rfl⟩
  | true =>
    refine ⟨(addToPool p n s).cru, (addToPool p n s).ern, addToPool_rest p n s, addToPool_cruAt p n s,
      fun q hq => addToPool_cruAt_ne p n s hq, fun _ hcut => ?_, fun hno => ?_⟩
    · rw [addToPool_cut hcut]
      exact ⟨rfl, Ern.holds_raise⟩
    · rw [addToPool_fits (Nat.not_lt.mp fun hcut => hno ⟨rfl, hcut⟩)]
      rfl

end

theorem admitWaiting_ern (p : Port) (mark : Bool) (i : Slot) (s : State) : (admitWaiting p mark i s).ern = s.ern := by
  have hgate : (admitWaiting p mark i s).ern =
      (onGateOf i (fun g m => m.want g .shaped (m.gate g).divisor (s.currentStep p).res) s).ern := rfl
  rw [hgate]
  unfold onGateOf
  split <;> rfl

/-- A refill raises no notice. -/
theorem refill_ern (p : Port) (s : State) : (refill p s).ern = s.ern := by
  have key (l : List Slot) (u : State) : (admitAll p l u).ern = u.ern := by
    induction l generalizing u with
    | nil => rfl
    | cons i l ih => rw [admitAll_cons, ih, admitWaiting_ern]
  by_cases hst : (s.prcAt p).state = .relief
  · rw [refill_eq_admitAll p s hst, key]
  · rw [refill_of_not_relief p s hst]

theorem rerate_ern (p : Port) (s : State) : (rerate p s).ern = s.ern := by rw [rerate_rest]

theorem gateMismatch_iff (r : GateRef) (named : Option GateRef) :
    gateMismatch (some r) named = decide (¬named = some r) := by
  by_cases h : named = some r
  · simp [gateMismatch, h]
  · simp [gateMismatch, h, Ne.symm h]

theorem refunds_iff (r : GateRef) (named : Option GateRef) {st : PortState} (hst : st = .relief ∨ st = .paused) :
    refunds (some r) named st = decide (named = some r) := by
  have hport : (st == .relief || st == .paused) = true := by rcases hst with rfl | rfl <;> rfl
  unfold refunds
  rw [hport]
  by_cases h : named = some r
  · simp [h]
  · simp [h, Ne.symm h]

/-! ### An ADMITTED entry that ends (R54) -/

section
variable {w : State} {p : Port} {i : Slot} {e : Entry} {r : GateRef} (hb : w.booksOk) (he : w.rtb.entry? i = some e)
  (hp : e.port = p) (hr : e.gate = some r) (hst : e.state = .admitted)

/-- The state in which an ADMITTED entry has gone and the refill follows. -/
def admittedGone (p : Port) (i : Slot) (w : State) : State :=
  dropEntry p i (fun a => { a with admitted := a.admitted.erase i }) (fun x => { x with completed := sat32 (x.completed + 1) }) w

include hb he hp hst

theorem State.booksOk.not_waiting_of_admitted : i ∉ (w.aduAt p).waitQ := fun hi =>
  nomatch hst.symm.trans ((hb.waits_iff he).mp (hp ▸ hi))

theorem admittedGone_lists : ({ w.aduAt p with admitted := (w.aduAt p).admitted.erase i } : AduPort) =
    ⟨(w.aduAt p).waitQ.erase i, (w.aduAt p).admitted.erase i⟩ := by
  rw [List.erase_of_not_mem (hb.not_waiting_of_admitted he hp hst)]

theorem admittedGone_books : (admittedGone p i w).booksOk :=
  (keptAt_dropEntry _ _ he hp fun _ => admittedGone_lists hb he hp hst).books hb

include hr in
/-- What the refill and the re-rating after it leave (R54, R132, R133). -/
theorem admittedGone_settled : ∃ t, t = settle (rerate p (refill p (admittedGone p i w))) ∧
    (t.aduAt p).admitted = (w.aduAt p).admitted.erase i ++
      (w.aduAt p).waitQ.take (t.refillCount p ((w.aduAt p).admitted.erase i).length (w.aduAt p).waitQ) ∧
    (t.aduAt p).waitQ =
      (w.aduAt p).waitQ.drop (t.refillCount p ((w.aduAt p).admitted.erase i).length (w.aduAt p).waitQ) ∧ t.rated p ∧
    (t.prcAt p).episode = Episode.admitting (t.refillCount p (w.admittedCount p - 1) (w.aduAt p).waitQ)
      { (w.prcAt p).episode with completed := sat32 ((w.prcAt p).episode.completed + 1) } ∧
    (rerate p (refill p (admittedGone p i w))).ern = w.ern := by
  have hdrop : admittedGone p i w = _ := dropEntry_eq he hp hr
  have hmade := refillMade_rerate (p := p) (admittedGone_books hb he hp hst)
  have hadu : (admittedGone p i w).aduAt p = { w.aduAt p with admitted := (w.aduAt p).admitted.erase i } :=
    dropEntry_aduAt he hp hr
  have hprc : (admittedGone p i w).prcAt p = { w.prcAt p with
      episode := { (w.prcAt p).episode with completed := sat32 ((w.prcAt p).episode.completed + 1) } } :=
    dropEntry_prcAt _ _
  have hin : i ∈ (w.aduAt p).admitted := hp ▸ (hb.admitted_iff he).mpr hst
  have hcount : (admittedGone p i w).admittedCount p = w.admittedCount p - 1 := by
    rw [State.admittedCount, hadu]
    exact List.length_erase_of_mem hin
  obtain ⟨hadmitted, hwaiting, hrated, _⟩ := hmade.refilled (s := admittedGone p i w) ⟨rfl, rfl, rfl⟩ hmade.gates
  rw [hadu] at hadmitted hwaiting
  refine ⟨_, rfl, hadmitted, hwaiting, hrated, ?_, ?_⟩
  · rw [settle_prcAt, hmade.port, hprc, settle_refillCount, hcount, hadu]
  · rw [rerate_ern, refill_ern, hdrop]

end

end Sys2Proof.Machine

namespace Sys2Proof.Proofs

open Sys2Proof Sys2Proof.Machine

/-- Settles O38. -/
theorem flowEndOfAdmitted : Obligations.FlowEndOfAdmitted := by
  intro s h p named left i e r ht hbooks hl hr
  obtain ⟨he, _, hp⟩ := hbooks.lookup_some hl
  have hok := hbooks.entryOk he
  have hocc := hbooks.occurs he
  have hexec := exec_flowEnd_taken ht
  rw [takeFlowEnd_known (s := s.withoutRecord _) hl] at hexec
  let w := (s.withoutRecord (.flowEnd h p named left)).flowCounted e named
  have hw : w.booksOk := (alike_counts s rfl ⟨rfl, rfl, rfl⟩ rfl rfl rfl : Alike s w).booksOk hbooks
  have hctr : w.rtb.ctr = { s.rtb.ctr with
      flowEnds := sat32 (s.rtb.ctr.flowEnds + 1)
      gateMismatches := if named = some r then s.rtb.ctr.gateMismatches else sat32 (s.rtb.ctr.gateMismatches + 1) } := by
    show ({ s.rtb.ctr with
      flowEnds := sat32 (s.rtb.ctr.flowEnds + 1)
      gateMismatches := if gateMismatch e.gate named then sat32 (s.rtb.ctr.gateMismatches + 1)
        else s.rtb.ctr.gateMismatches } : RtbCounters) = _
    rw [hr, gateMismatch_iff]
    by_cases hnamed : named = some r <;> simp [hnamed]
  have hheld : e.state.holdsGate = true := hok.1.mp (by rw [hr]; rfl)
  cases hst : e.state with
  | seen => rw [hst] at hheld; exact nomatch hheld
  | bypassed => rw [hst] at hheld; exact nomatch hheld
  | ungated => rw [hst] at hheld; exact nomatch hheld
  | admitted =>
    rw [endEntry_admitted named left.toNat hp hst] at hexec
    have hport : (s.prcAt p).state = .relief ∨ (s.prcAt p).state = .paused := by
      rw [hst, hp] at hocc
      revert hocc
      cases (s.prcAt p).state <;> simp [EntryState.occursIn]
    obtain ⟨c, m, hpool, hown, hother, hover, hnever⟩ := refund_effects p left.toNat w (decide (named = some r))
    have hrefund : refunds e.gate named ((s.withoutRecord (.flowEnd h p named left)).prcAt p).state =
        decide (named = some r) := by
      rw [hr]
      exact refunds_iff r named hport
    rw [hrefund] at hexec
    change exec _ s = .next (settle (rerate p (refill p (admittedGone p i
      (if decide (named = some r) then addToPool p left.toNat w else w))))) at hexec
    rw [hpool] at hexec
    have hbooks' : State.booksOk { w with cru := c, ern := m } :=
      (alike_counts w rfl ⟨rfl, rfl, rfl⟩ rfl rfl rfl : Alike w { w with cru := c, ern := m }).booksOk hw
    obtain ⟨t, ht, hadmitted, hwaiting, hrated, hepisode, hern⟩ :=
      admittedGone_settled (w := { w with cru := c, ern := m }) hbooks' he hp hr hst
    have hgone : Gone p i r { w with cru := c, ern := m } t := ht ▸ gone_settled (w := { w with cru := c, ern := m }) hbooks'
      he hp hr (admittedGone_lists (w := { w with cru := c, ern := m }) hbooks' he hp hst)
      (Trails.refill (admittedGone_books (w := { w with cru := c, ern := m }) hbooks' he hp hst))
    have hpoolp : t.cruAt p = ⟨if named = some r then min 16777215 ((s.cruAt p).a + left.toNat) else (s.cruAt p).a,
        (s.cruAt p).s⟩ := by
      rw [State.cruAt, hgone.cru]
      refine hown.trans ?_
      simp only [decide_eq_true_eq]
      rfl
    refine ⟨t, ht ▸ hexec, hgone.entry, hgone.gate, hgone.orders, by rw [hpoolp], hgone.state, hgone.ctr.trans hctr,
      hgone.frees, hgone.free, fun q hq => ⟨(hgone.others q hq).1, (hgone.others q hq).2, ?_⟩, hgone.arrival, hgone.oev,
      hgone.cmp, hgone.pgs, hgone.tmb, fun _ => ⟨?_, by rw [hpoolp], ?_, ⟨hadmitted, hwaiting, hrated, hgone.orders⟩,
        hepisode⟩, nofun, nofun⟩
    · rw [State.cruAt, hgone.cru]
      exact hother q hq
    · rw [hadmitted, List.mem_append, not_or]
      exact ⟨fun hi => ((hw.admitted p).1.mem_erase_iff.mp hi).1 rfl,
        fun hi => hw.not_waiting_of_admitted he hp hst (List.mem_of_mem_take hi)⟩
    · dsimp only
      rw [hgone.cru]
      split
      · next hcut =>
        obtain ⟨hoverflow, hheldNotice⟩ := hover (decide_eq_true hcut.1) hcut.2
        refine ⟨hoverflow, ?_⟩
        rw [ht]
        refine Ern.Holds.settle ?_ nofun
        rw [hern]
        exact hheldNotice
      · next hno => exact hnever fun hcut => hno ⟨of_decide_eq_true hcut.1, hcut.2⟩
  | waiting =>
    rw [endEntry_waiting named left.toNat hp hst] at hexec
    have hout : i ∉ (w.aduAt p).admitted := fun hi => nomatch hst.symm.trans ((hw.admitted_iff he).mp (hp ▸ hi))
    have hlists : ({ w.aduAt p with waitQ := (w.aduAt p).waitQ.erase i } : AduPort) =
        ⟨(w.aduAt p).waitQ.erase i, (w.aduAt p).admitted.erase i⟩ := by rw [List.erase_of_not_mem hout]
    have hgone : Gone p i r w _ := gone_settled (w := w) (f := fun a => { a with waitQ := a.waitQ.erase i })
      (g := fun x => { x with endedHeld := sat32 (x.endedHeld + 1) }) hw he hp hr hlists (.refl p _)
    refine ⟨_, hexec, hgone.entry, hgone.gate, hgone.orders, by rw [State.cruAt, hgone.cru]; rfl, hgone.state,
      hgone.ctr.trans hctr, hgone.frees, hgone.free, fun q hq => ⟨(hgone.others q hq).1, (hgone.others q hq).2,
        by rw [State.cruAt, hgone.cru]; rfl⟩, hgone.arrival, hgone.oev, hgone.cmp, hgone.pgs, hgone.tmb, nofun,
      fun _ => ⟨?_, hgone.cru, ?_, fun j hj => ?_⟩, nofun⟩
    · rw [settle_aduAt, dropEntry_aduAt (w := w) he hp hr]
      rfl
    · rw [settle_prcAt, dropEntry_prcAt]
      rfl
    · rw [settle_rtb, (dropEntry_letsGo (s := w) _ _ he hlists).others j hj]
      rfl
  | released =>
    rw [endEntry_released (p := p) named left.toNat hst] at hexec
    have hwait : i ∉ (w.aduAt p).waitQ := fun hi => nomatch hst.symm.trans ((hw.waits_iff he).mp (hp ▸ hi))
    have hadm : i ∉ (w.aduAt p).admitted := fun hi => nomatch hst.symm.trans ((hw.admitted_iff he).mp (hp ▸ hi))
    have hlists : id (w.aduAt p) = ⟨(w.aduAt p).waitQ.erase i, (w.aduAt p).admitted.erase i⟩ := by
      rw [List.erase_of_not_mem hwait, List.erase_of_not_mem hadm]
      rfl
    have hgone : Gone p i r w _ := gone_settled (w := w) (f := id) (g := id) hw he hp hr hlists (.refl p _)
    have hdrop : dropEntry p i id id w = _ := dropEntry_eq he hp hr
    refine ⟨_, hexec, hgone.entry, hgone.gate, hgone.orders, by rw [State.cruAt, hgone.cru]; rfl, hgone.state,
      hgone.ctr.trans hctr, hgone.frees, hgone.free, fun q hq => ⟨(hgone.others q hq).1, (hgone.others q hq).2,
        by rw [State.cruAt, hgone.cru]; rfl⟩, hgone.arrival, hgone.oev, hgone.cmp, hgone.pgs, hgone.tmb, nofun, nofun,
      fun _ => ⟨?_, hgone.cru, ?_, fun j hj => ?_⟩⟩
    · rw [settle_adu, hdrop]
      have hadu : (w.modAdu p id).adu = w.adu := congrArg State.adu (State.modAdu_same rfl)
      exact hadu
    · rw [settle_prc, hdrop]
      have hprc : (w.modEpisode p id).prc = w.prc := congrArg State.prc (State.modPrc_same w p _ rfl)
      exact hprc
    · rw [settle_rtb, (dropEntry_letsGo (s := w) _ _ he hlists).others j hj]
      rfl

end Sys2Proof.Proofs
end

section
/-! SUPPORT. The end of an event as the statements read it, and the end of an episode (R41, R102, R103, R138, R144). -/

namespace Sys2Proof.Machine

/-! ### The end of an event -/

/-- What the statements read of `t` at the end of an event whose blocks have left `v`: transmitters, gates taken and
notices sent aside, nothing has changed, and what waits in the pending set is announced. -/
structure Shows (v t : State) : Prop where
  blocks  : t = { v with flc := t.flc, gpm := t.gpm, ern := t.ern, clc := t.clc }
  history : t.ern.history = v.ern.history ∧ t.ern.written = v.ern.written
  tells   : ∀ {c : NoticeClass} {sc : Option Port} {ep val : Nat} {time : BitVec 32}, c ≠ .linkState →
    v.ern.Holds c sc ep val time → t.announces c sc ep val time

theorem fabPump_history (v : State) : (fabPump v).ern.history = v.ern.history ∧ (fabPump v).ern.written = v.ern.written := by
  unfold fabPump
  split_ifs
  · exact ⟨rfl, rfl⟩
  · exact ⟨rfl, rfl⟩
  · exact ⟨rfl, rfl⟩
  · obtain ⟨_, hhistory, hwritten, _⟩ := Ern.raise_keeps v.ern .linkState none 0 0 v.stamp
    exact ⟨hhistory, hwritten⟩
  · exact ⟨rfl, rfl⟩

theorem ctlPump_history (v : State) : (ctlPump v).ern.history = v.ern.history ∧ (ctlPump v).ern.written = v.ern.written := by
  unfold ctlPump
  split
  · exact ⟨rfl, rfl⟩
  · split
    · exact ⟨rfl, rfl⟩
    · split <;> exact ⟨rfl, rfl⟩

namespace Shows

variable {v t : State}

theorem refl (v : State) : Shows v v := ⟨rfl, ⟨rfl, rfl⟩, fun _ h => h.announces⟩

theorem settle (v : State) : Shows v (settle v) where
  blocks := settle_rest v
  history := by
    obtain ⟨hf, hfw⟩ := fabPump_history v
    obtain ⟨hc, hcw⟩ := ctlPump_history (fabPump v)
    exact ⟨hc.trans hf, hcw.trans hfw⟩
  tells hc h := h.settle hc

/-- The end of a request's event. -/
theorem answered (v : State) (c : Clc) : Shows v { Machine.settle v with ern := (fabPump v).ern, clc := c } where
  blocks := by
    have h := settle_rest v
    dsimp only
    rw [h]
  history := fabPump_history v
  tells hc h := Ern.Holds.announces (u := { Machine.settle v with ern := (fabPump v).ern, clc := c }) (h.fabPump hc)

theorem prcAt (h : Shows v t) (q : Port) : t.prcAt q = v.prcAt q := by rw [h.blocks]; rfl
theorem aduAt (h : Shows v t) (q : Port) : t.aduAt q = v.aduAt q := by rw [h.blocks]; rfl
theorem cruAt (h : Shows v t) (q : Port) : t.cruAt q = v.cruAt q := by rw [h.blocks]; rfl
theorem oevAt (h : Shows v t) (q : Port) : t.oevAt q = v.oevAt q := by rw [h.blocks]; rfl
theorem prc (h : Shows v t) : t.prc = v.prc := by rw [h.blocks]
theorem rtb (h : Shows v t) : t.rtb = v.rtb := by rw [h.blocks]
theorem oev (h : Shows v t) : t.oev = v.oev := by rw [h.blocks]

theorem others (h : Shows v t) (p : Port) : OthersKept p v t := by
  rw [h.blocks]
  exact .of_blocks rfl rfl rfl rfl

end Shows

/-! ### The episode end (R102) -/

theorem othersKept_returnAll {p : Port} {s : State} (h : s.gatesOk) : OthersKept p s (returnAll p s) :=
  .of_quiet (quiet_returnAll p s)
    (fun q hq => ⟨returnAll_prcAt .., by rw [returnAll_aduAt, if_neg hq], by rw [returnAll_rest]; rfl,
      by rw [returnAll_rest]; rfl⟩)
    fun i e he hp => by rw [returnAll_entry? h p he, if_neg hp]

theorem Ern.append_last (e : Ern) (x : Summary) : (e.append x).history.getLast? = some x ∧
    (e.append x).written = sat32 (e.written + 1) := by
  unfold Ern.append
  split
  · exact ⟨by simp, rfl⟩
  · exact ⟨by simp, rfl⟩

/-- What items 1 to 5 of R102 make of a port and of its entries and gates, between `w` and `c`. -/
structure EpisodeClosed (p : Port) (o : EpisodeOutcome) (w c : State) : Prop where
  others   : OthersKept p w c
  quiet    : Quiet w c
  port     : c.prcAt p = { w.prcAt p with episode := (w.prcAt p).closed o w.now }
  counter  : c.prc.episodeCounter = w.prc.episodeCounter
  oev      : c.oev = w.oev
  gates    : GatesFreed (w.portGates p) w.gpm c.gpm
  returned : ∀ i e, w.rtb.entry? i = some e → e.port = p → c.rtb.entry? i = some e.returned
  emptied  : c.aduAt p = ⟨[], []⟩ ∧ c.cruAt p = ⟨0, 0⟩
  summary  : c.ern.written = sat32 (w.ern.written + 1) ∧
    c.ern.history.getLast? = some ((c.prcAt p).episode.summary p o (w.oevAt p).peak)
  notice   : c.ern.Holds .episodeEnd (some p) (w.prcAt p).episode.number (o.code + mark128 ((w.prcAt p).discards o)) w.stamp
  earlier  : ∀ {d : NoticeClass} {sc : Option Port} {ep val : Nat} {time : BitVec 32}, d ≠ .episodeEnd →
    w.ern.Holds d sc ep val time → c.ern.Holds d sc ep val time

/-- The state of an end whose clock has been stopped (R102, item 1). -/
def clockStopped (p : Port) (w : State) : State := w.modEpisode p fun e => { e with clock := e.clock.halt w.now }

theorem closeEpisode_blocks (p : Port) (o : EpisodeOutcome) (w : State) :
    (closeEpisode p o w).gpm = (returnAll p (clockStopped p w)).gpm ∧
    (closeEpisode p o w).rtb = (returnAll p (clockStopped p w)).rtb ∧
    (closeEpisode p o w).oev = w.oev ∧ (closeEpisode p o w).prc.episodeCounter = w.prc.episodeCounter := by
  have hrest := returnAll_rest p (clockStopped p w)
  have hoev : (returnAll p (clockStopped p w)).oev = w.oev := by rw [hrest]; rfl
  have hcounter : (returnAll p (clockStopped p w)).prc.episodeCounter = w.prc.episodeCounter := by rw [hrest]; rfl
  exact ⟨rfl, rfl, hoev, hcounter⟩

theorem returned_blocks (p : Port) (o : EpisodeOutcome) (w : State) :
    (returned p o w).ern = w.ern ∧ (returned p o w).oev = w.oev ∧ (returned p o w).stamp = w.stamp := by
  have hrest := returnAll_rest p (clockStopped p w)
  have hern : (returnAll p (clockStopped p w)).ern = w.ern := by rw [hrest]; rfl
  have hoev : (returnAll p (clockStopped p w)).oev = w.oev := by rw [hrest]; rfl
  have htmb : (returnAll p (clockStopped p w)).tmb = w.tmb := by rw [hrest]; rfl
  exact ⟨hern, hoev, congrArg (fun m : Tmb => BitVec.ofNat 32 m.micros) htmb⟩

/-- The summary and the notice of an end (R102, R171). -/
theorem closeEpisode_ern (p : Port) (o : EpisodeOutcome) (w : State) : (closeEpisode p o w).ern =
    (w.ern.append (((closeEpisode p o w).prcAt p).episode.summary p o (w.oevAt p).peak)).raise .episodeEnd (some p)
      (w.prcAt p).episode.number (o.code + mark128 ((w.prcAt p).discards o)) w.stamp := by
  obtain ⟨hern, hoev, hstamp⟩ := returned_blocks p o w
  have hport := returned_prcAt p w o
  have hraised (u : State) (e : Ern) (n : Nat) : (State.raiseEpisode .episodeEnd p n { u with ern := e }).ern =
      e.raise .episodeEnd (some p) (u.prcAt p).episode.number n u.stamp := rfl
  rw [closeEpisode_prcAt, closeEpisode_eq, hraised, hern, hstamp, hport, State.oevAt, hoev]
  rfl

theorem clearedCru_returned (p : Port) (o : EpisodeOutcome) (w : State) :
    (closeEpisode p o w).aduAt p = ⟨[], []⟩ ∧ (closeEpisode p o w).cruAt p = ⟨0, 0⟩ := by
  have hkept (u : State) (n : Nat) (e : Ern) :
      (State.raiseEpisode .episodeEnd p n { u with ern := e }).adu = u.adu ∧
      (State.raiseEpisode .episodeEnd p n { u with ern := e }).cru = u.cru := ⟨rfl, rfl⟩
  have hcleared (u : State) (f : Episode → Episode) :
      ((u.modCru p fun _ => ⟨0, 0⟩).modEpisode p f).adu = u.adu ∧
      ((u.modCru p fun _ => ⟨0, 0⟩).modEpisode p f).cru = (u.modCru p fun _ => ⟨0, 0⟩).cru := ⟨rfl, rfl⟩
  rw [closeEpisode_eq, State.aduAt, State.cruAt, (hkept ..).1, (hkept ..).2, returned, (hcleared ..).1, (hcleared ..).2]
  constructor
  · exact (returnAll_aduAt p _ p).trans (if_pos rfl)
  · exact (State.cruAt_modCru ..).trans (if_pos rfl)

theorem othersKept_closeEpisode {p : Port} {w : State} (o : EpisodeOutcome) (h : w.gatesOk) :
    OthersKept p w (closeEpisode p o w) := by
  have hreturn : OthersKept p (clockStopped p w) (returnAll p (clockStopped p w)) :=
    othersKept_returnAll (gatesOk_modPrc h _)
  have hclock : OthersKept p w (clockStopped p w) := othersKept_modEpisode _
  exact ((((hclock.trans hreturn).trans (othersKept_modCru _)).trans (othersKept_modEpisode _)).trans
    (othersKept_ern _)).trans (othersKept_raiseEpisode _ _)

theorem episodeClosed {p : Port} {w : State} (o : EpisodeOutcome) (h : w.booksOk) :
    EpisodeClosed p o w (closeEpisode p o w) := by
  have hgates := (State.booksOk_iff.mp h).1
  have hclock : (clockStopped p w).gatesOk := gatesOk_modPrc hgates _
  obtain ⟨hgpm, hrtb, hoev, hcounter⟩ := closeEpisode_blocks p o w
  have hern := closeEpisode_ern p o w
  obtain ⟨_, hhistory, hwritten, _⟩ := Ern.raise_keeps
    (w.ern.append (((closeEpisode p o w).prcAt p).episode.summary p o (w.oevAt p).peak)) .episodeEnd (some p)
      (w.prcAt p).episode.number (o.code + mark128 ((w.prcAt p).discards o)) w.stamp
  obtain ⟨hlast, hcount⟩ := Ern.append_last w.ern (((closeEpisode p o w).prcAt p).episode.summary p o (w.oevAt p).peak)
  exact {
    others := othersKept_closeEpisode o hgates
    quiet := quiet_closeEpisode p o w
    port := closeEpisode_prcAt p w o
    counter := hcounter
    oev := hoev
    gates := by rw [hgpm]; exact returnAll_freed hclock p
    returned := fun i e he hp => by rw [hrtb, returnAll_entry? hclock p he, if_pos hp]
    emptied := clearedCru_returned p o w
    summary := by rw [hern, hwritten, hhistory]; exact ⟨hcount, hlast⟩
    notice := by rw [hern]; exact Ern.holds_raise
    earlier := fun hd hheld => by rw [hern]; exact hheld.append.raise hd }

/-! ### The port after the end (R103) -/

/-- Between `c` and `v` an ended episode's port has been given its next state, and nothing else has happened but a
PORT_DISARMED notice. -/
structure Rests (p : Port) (next : PortState) (c v : State) : Prop where
  rest    : v = { c with prc := v.prc, ern := v.ern }
  others  : ∀ q, q ≠ p → v.prcAt q = c.prcAt q
  state   : (v.prcAt p).state = next
  standby : (v.prcAt p).standby = none
  episode : (v.prcAt p).episode = (c.prcAt p).episode
  config  : (v.prcAt p).config = (c.prcAt p).config
  timer   : next = .cooldown → (v.prcAt p).cooldown = .running c.now (c.prcAt p).config.tc
  counter : v.prc.episodeCounter = c.prc.episodeCounter
  history : v.ern.history = c.ern.history ∧ v.ern.written = c.ern.written
  earlier : ∀ {d : NoticeClass} {sc : Option Port} {ep val : Nat} {time : BitVec 32}, d ≠ .portDisarmed →
    c.ern.Holds d sc ep val time → v.ern.Holds d sc ep val time

section
variable {p : Port} {c : State} {next : PortState}

theorem rests_modPrc (f : PrcPort → PrcPort) (hstate : (f (c.prcAt p)).state = next)
    (hstandby : (f (c.prcAt p)).standby = none) (hepisode : (f (c.prcAt p)).episode = (c.prcAt p).episode)
    (hconfig : (f (c.prcAt p)).config = (c.prcAt p).config)
    (htimer : next = .cooldown → (f (c.prcAt p)).cooldown = .running c.now (c.prcAt p).config.tc) :
    Rests p next c (c.modPrc p f) where
  rest := rfl
  others q hq := State.prcAt_modPrc_ne p c f hq
  state := by rw [State.prcAt_modPrc_self, hstate]
  standby := by rw [State.prcAt_modPrc_self, hstandby]
  episode := by rw [State.prcAt_modPrc_self, hepisode]
  config := by rw [State.prcAt_modPrc_self, hconfig]
  timer h := by rw [State.prcAt_modPrc_self, htimer h]
  counter := rfl
  history := ⟨rfl, rfl⟩
  earlier _ h := h

theorem Rests.raise {v : State} (h : Rests p next c v) (n : Nat) :
    Rests p next c (v.raiseEpisode .portDisarmed p n) := by
  obtain ⟨_, hhistory, hwritten, _⟩ := Ern.raise_keeps v.ern .portDisarmed (some p) (v.prcAt p).episode.number n v.stamp
  exact ⟨by have := h.rest; rw [this]; rfl, h.others, h.state, h.standby, h.episode, h.config, h.timer, h.counter,
    ⟨hhistory.trans h.history.1, hwritten.trans h.history.2⟩, fun hd hheld => (h.earlier hd hheld).raise hd⟩

theorem Rests.othersKept {v : State} (h : Rests p next c v) : OthersKept p c v := by
  refine ⟨fun q hq => ⟨h.others q hq, ?_, ?_, ?_⟩, fun i e he _ => ?_, h.config, ?_, ?_, ?_, ?_, ?_, ?_, ?_⟩ <;> rw [h.rest]
  exacts [rfl, rfl, rfl, he]

theorem rests_clearStandby (hst : (c.prcAt p).state = next) (hno : next ≠ .cooldown) :
    Rests p next c (clearStandby p c) :=
  rests_modPrc _ hst rfl rfl rfl fun h => absurd h hno

end

/-- The state that follows an end which starts no standby (R103). -/
def PrcPort.coolingState (q : PrcPort) : PortState := if q.config.tc = 0 then .idle else .cooldown

theorem rests_toCooldown (p : Port) (c : State) : Rests p (c.prcAt p).coolingState c (toCooldown p (clearStandby p c)) := by
  have hmod : toCooldown p (clearStandby p c) = c.modPrc p fun q =>
      if (c.prcAt p).config.tc = 0 then { q with standby := none }.enter .idle
      else { ({ q with standby := none } : PrcPort).enter .cooldown with cooldown := .running c.now q.config.tc } := by
    rw [toCooldown_eq, clearStandby_prcAt, clearStandby, State.modPrc_modPrc]
    rfl
  rw [hmod]
  unfold PrcPort.coolingState
  split
  · next htc =>
    exact rests_modPrc _ rfl rfl rfl rfl nofun
  · next htc =>
    exact rests_modPrc _ rfl rfl rfl rfl fun _ => rfl

end Sys2Proof.Machine
end

section
/-! SUPPORT. The events that end an episode (R89, R100 to R103, R106). -/

namespace Sys2Proof.Machine

/-- Between `s` and `w`, the state whose episode an event ends, only what the end does not read has changed. -/
structure SameEnd (p : Port) (s w : State) : Prop where
  blocks  : w = { s with prc := w.prc, ern := w.ern, clc := w.clc, flc := w.flc }
  others  : ∀ q, q ≠ p → w.prcAt q = s.prcAt q
  config  : (w.prcAt p).config = (s.prcAt p).config
  episode : (w.prcAt p).episode = (s.prcAt p).episode
  standby : (w.prcAt p).standby = (s.prcAt p).standby
  counter : w.prc.episodeCounter = s.prc.episodeCounter
  written : w.ern.written = s.ern.written

namespace SameEnd

variable {p : Port} {s w : State}

theorem refl (p : Port) (s : State) : SameEnd p s s := ⟨rfl, fun _ _ => rfl, rfl, rfl, rfl, rfl, rfl⟩

theorem with_line (s : State) (flc : Flc) (clc : Clc) : SameEnd p s { s with flc := flc, clc := clc } :=
  ⟨rfl, fun _ _ => rfl, rfl, rfl, rfl, rfl, rfl⟩

theorem modPrc (h : SameEnd p s w) (f : PrcPort → PrcPort) (hconfig : (f (w.prcAt p)).config = (w.prcAt p).config)
    (hepisode : (f (w.prcAt p)).episode = (w.prcAt p).episode)
    (hstandby : (f (w.prcAt p)).standby = (w.prcAt p).standby) : SameEnd p s (w.modPrc p f) where
  blocks := by have := h.blocks; rw [this]; rfl
  others q hq := (State.prcAt_modPrc_ne p w f hq).trans (h.others q hq)
  config := by rw [State.prcAt_modPrc_self, hconfig, h.config]
  episode := by rw [State.prcAt_modPrc_self, hepisode, h.episode]
  standby := by rw [State.prcAt_modPrc_self, hstandby, h.standby]
  counter := h.counter
  written := h.written

theorem raise (h : SameEnd p s w) (c : NoticeClass) (n : Nat) : SameEnd p s (w.raiseEpisode c p n) where
  blocks := by have := h.blocks; rw [this]; rfl
  others := h.others
  config := h.config
  episode := h.episode
  standby := h.standby
  counter := h.counter
  written := by
    obtain ⟨_, _, hwritten, _⟩ := Ern.raise_keeps w.ern c (some p) (w.prcAt p).episode.number n w.stamp
    exact hwritten.trans h.written

theorem othersKept (h : SameEnd p s w) : OthersKept p s w := by
  refine ⟨fun q hq => ⟨h.others q hq, ?_, ?_, ?_⟩, fun i e he _ => ?_, h.config, ?_, ?_, ?_, ?_, ?_, ?_, ?_⟩ <;>
    rw [h.blocks]
  exacts [rfl, rfl, rfl, he]

theorem now (h : SameEnd p s w) : w.now = s.now := by rw [h.blocks]; rfl
theorem stamp (h : SameEnd p s w) : w.stamp = s.stamp := by rw [h.blocks]; rfl
theorem rtb (h : SameEnd p s w) : w.rtb = s.rtb := by rw [h.blocks]
theorem gpm (h : SameEnd p s w) : w.gpm = s.gpm := by rw [h.blocks]
theorem oev (h : SameEnd p s w) : w.oev = s.oev := by rw [h.blocks]

theorem discards (h : SameEnd p s w) (o : EpisodeOutcome) : (w.prcAt p).discards o =
    ((s.prcAt p).standby.isSome && !letsStandbyStart o (s.prcAt p).config.stall) := by
  rw [PrcPort.discards, h.standby, h.config]

theorem closed (h : SameEnd p s w) (o : EpisodeOutcome) : (w.prcAt p).closed o w.now =
    { (s.prcAt p).episode with
      clock := ⟨(s.prcAt p).episode.clock.read s.now, none⟩, outcome := some o
      standbyDiscarded := (s.prcAt p).standby.isSome && !letsStandbyStart o (s.prcAt p).config.stall } := by
  rw [PrcPort.closed, h.discards, h.episode, h.now]

theorem portGates (h : SameEnd p s w) : w.portGates p = s.portGates p := by
  rw [h.blocks]; rfl

end SameEnd

section
variable {p : Port} {o : EpisodeOutcome} {next : PortState} {s w v t : State}

/-- An end that starts no standby program (R102, R103). -/
theorem episodeEnded (hs : SameEnd p s w) (h : w.booksOk) (hrest : Rests p next (closeEpisode p o w) v) (ht : Shows v t) :
    EpisodeEnded p o next s v.gpm t := by
  have hc := episodeClosed (p := p) o h
  generalize closeEpisode p o w = c at hrest hc
  have hgpm : v.gpm = c.gpm := by rw [hrest.rest]
  have hnow : c.now = s.now := by rw [State.now, hc.quiet.tmb]; exact hs.now
  have hport := hc.port
  have hepisode : (c.prcAt p).episode = (w.prcAt p).closed o w.now := by rw [hport]
  have hconfig : (c.prcAt p).config = (s.prcAt p).config := by rw [hport]; exact hs.config
  have hrtb : v.rtb = c.rtb := by rw [hrest.rest]
  have hoev : v.oev = c.oev := by rw [hrest.rest]
  have hcollections : v.aduAt p = c.aduAt p ∧ v.cruAt p = c.cruAt p := by rw [hrest.rest]; exact ⟨rfl, rfl⟩
  exact {
    state := by rw [ht.prcAt]; exact ⟨hrest.state, hrest.standby⟩
    timer := fun hnext => by rw [ht.prcAt, hrest.timer hnext, hnow, hconfig]
    gates := by rw [hgpm, ← hs.portGates, ← hs.gpm]; exact hc.gates
    record := by rw [ht.prcAt, hrest.episode, hepisode, hs.closed]
    returned := fun i e he hp => by rw [ht.rtb, hrtb]; exact hc.returned i e (by rw [hs.rtb]; exact he) hp
    emptied := by rw [ht.aduAt, ht.cruAt, hcollections.1, hcollections.2]; exact hc.emptied
    summary := by
      obtain ⟨hwritten, hlast⟩ := hc.summary
      obtain ⟨hhistory, hcount⟩ := hrest.history
      obtain ⟨hhistory', hcount'⟩ := ht.history
      rw [hcount', hcount, hwritten, hs.written, hhistory', hhistory, hlast, ht.prcAt, hrest.episode, State.oevAt, hs.oev]
      exact ⟨rfl, rfl⟩
    counter := by rw [ht.prc, hrest.counter, hc.counter, hs.counter, ht.oev, hoev, hc.oev, hs.oev]; exact ⟨rfl, rfl⟩
    notice := by
      have hheld := hrest.earlier (d := .episodeEnd) nofun hc.notice
      rw [hs.episode, hs.discards, hs.stamp] at hheld
      rw [ht.prcAt, hrest.episode, hepisode, hs.closed]
      exact ht.tells nofun hheld
    others := ((hs.othersKept.trans hc.others).trans hrest.othersKept).trans (ht.others p) }

/-- A notice that waits before an end is told at the end of the event. -/
theorem told_after_end {d : NoticeClass} {sc : Option Port} {ep val : Nat} {time : BitVec 32} (h : w.booksOk)
    (hrest : Rests p next (closeEpisode p o w) v) (ht : Shows v t)
    (hd : d ≠ .episodeEnd ∧ d ≠ .portDisarmed ∧ d ≠ .linkState)
    (hheld : w.ern.Holds d sc ep val time) : t.announces d sc ep val time :=
  ht.tells hd.2.2 (hrest.earlier hd.2.1 ((episodeClosed o h).earlier hd.1 hheld))

end

/-! ### What each outcome leads to (R103) -/

section
variable {p : Port} {o : EpisodeOutcome} {s w v : State}

theorem rests_enterPort (c : State) (st : PortState) (h : st ≠ .cooldown) :
    Rests p st c ((clearStandby p c).enterPort p st) := by
  have hmod : (clearStandby p c).enterPort p st = c.modPrc p fun q => ({ q with standby := none } : PrcPort).enter st :=
    State.modPrc_modPrc ..
  rw [hmod]
  exact rests_modPrc _ rfl rfl rfl rfl fun hc => absurd hc h

/-- An end that starts no standby program leads to COOLDOWN, or to IDLE with Tc 0. -/
theorem rests_cooling (hcool : o = .stale ∨ o = .aborted ∨
    (w.prcAt p).standby = none ∧ (o = .completed ∨ o = .drainStall ∧ (w.prcAt p).config.stall = .cooldown)) :
    Rests p (w.prcAt p).coolingState (closeEpisode p o w) (endEpisode p o w) := by
  have hport := closeEpisode_prcAt p w o
  have hcooling : ((closeEpisode p o w).prcAt p).coolingState = (w.prcAt p).coolingState := by rw [hport]; rfl
  have hconfig : ((closeEpisode p o w).prcAt p).config = (w.prcAt p).config := by rw [hport]
  have hrest := rests_toCooldown p (closeEpisode p o w)
  rw [hcooling] at hrest
  unfold endEpisode
  generalize closeEpisode p o w = c at hrest hconfig
  unfold afterEnd
  rcases hcool with rfl | rfl | ⟨hno, rfl | ⟨rfl, hstall⟩⟩
  · exact hrest
  · exact hrest
  · rw [hno]; exact hrest
  · rw [hno, hconfig, hstall]; exact hrest

/-- A stall with the action DISARM leads to DISARMED, with its notice (R100). -/
theorem rests_stalled (hstall : (w.prcAt p).config.stall = .disarm) :
    Rests p .disarmed (closeEpisode p .drainStall w) (endEpisode p .drainStall w) ∧
    (endEpisode p .drainStall w).ern.Holds .portDisarmed (some p) (w.prcAt p).episode.number 0 w.stamp := by
  have hport := closeEpisode_prcAt p w .drainStall
  have hstamp : (closeEpisode p .drainStall w).stamp = w.stamp := by
    rw [State.stamp, (quiet_closeEpisode p .drainStall w).tmb, State.stamp]
  unfold endEpisode
  generalize closeEpisode p .drainStall w = c at hport hstamp
  have hafter : afterEnd p .drainStall (w.prcAt p).standby c =
      ((clearStandby p c).enterPort p .disarmed).raiseEpisode .portDisarmed p 0 := by
    unfold afterEnd
    rw [hport, hstall]
  have hrest := rests_enterPort (p := p) c .disarmed nofun
  have hheld := State.raiseEpisode_holds (s := (clearStandby p c).enterPort p .disarmed) (c := .portDisarmed) (p := p)
    (v := 0)
  rw [hrest.episode, hport] at hheld
  rw [hafter, ← hstamp]
  exact ⟨hrest.raise 0, hheld⟩

theorem rests_disarmed : Rests p .disarmed (closeEpisode p .disarmed w) (endEpisode p .disarmed w) :=
  rests_enterPort _ .disarmed nofun

/-! ### The end of an event as the lane takes it -/

theorem Rests.flc {next : PortState} (h : Rests p next (closeEpisode p o w) v) : v.flc = w.flc := by
  rw [h.rest]
  exact (quiet_closeEpisode p o w).flc

theorem Rests.clc {next : PortState} (h : Rests p next (closeEpisode p o w) v) : v.clc = w.clc := by
  rw [h.rest]
  exact (quiet_closeEpisode p o w).clc

/-- The end of an event that ends an episode. -/
theorem ended_settle {next : PortState} (hs : SameEnd p s w) (h : w.booksOk)
    (hline : w.flc.tx = s.flc.tx ∧ w.flc.link = s.flc.link ∧ w.flc.outSeq = s.flc.outSeq)
    (hrest : Rests p next (closeEpisode p o w) v) :
    EpisodeEnded p o next s v.gpm (settle v) ∧ s.laneTakes v.gpm (settle v) :=
  ⟨episodeEnded hs h hrest (.settle v), laneTakes_settle (by rw [hrest.flc]; exact hline)⟩

/-- The end of a request's event that ends an episode. -/
theorem ended_answered {next : PortState} (c : Clc) (h : w.booksOk) (hw : w = { s with clc := w.clc })
    (hrest : Rests p next (closeEpisode p o w) v) :
    EpisodeEnded p o next s v.gpm { settle v with ern := (fabPump v).ern, clc := c } ∧
    s.laneTakes v.gpm { settle v with ern := (fabPump v).ern, clc := c } := by
  have hs : SameEnd p s w := by
    rw [hw]
    exact .with_line s s.flc _
  have hflc : w.flc = s.flc := by rw [hw]
  exact ⟨episodeEnded hs h hrest (.answered v c),
    laneTakes_settle (s := s) (u := v) (by rw [hrest.flc, hflc]; exact ⟨rfl, rfl, rfl⟩)⟩

end

end Sys2Proof.Machine

namespace Sys2Proof.Proofs

open Sys2Proof Sys2Proof.Machine

/-- Settles O46. -/
theorem episodeEnds : Obligations.EpisodeEnds := by
  intro s p hrun hbooks hok hepisode q next
  have hcooling : (s.prcAt p).coolingState = next := rfl
  refine ⟨fun a b htimer hdue => ?_, fun a b hst htimer hdue => ?_,
    fun seq cells d ht hst hno hacc hlow => ?_, fun tag pb hport ht => ?_, fun tag pb hport ht => ?_⟩
  · let u := s.modPrc p fun q => { q with stale := .stopped }
    let w := u.raiseEpisode .telemetryStale p (s.prcAt p).state.code
    have hexec : exec (.staleExpiry p) s = .next (settle (staleEvent p s)) := if_pos hrun
    have hfires : s.staleDue p = true := by
      rw [State.staleDue, Timer.due_of_running htimer hdue, Bool.and_true]
      revert hepisode
      cases (s.prcAt p).state <;> simp [PortState.hasEpisode, PortState.runsStale]
    have hnowatch : (s.prcAt p).state ≠ .watch := fun h => by rw [h] at hepisode; exact nomatch hepisode
    have hevent : staleEvent p s = endEpisode p .stale w := (if_pos hfires).trans (if_neg hnowatch)
    have hsame : SameEnd p s w := ((SameEnd.refl p s).modPrc _ rfl rfl rfl).raise _ _
    have hbooksw : w.booksOk := ((alike_modPrc s p _ rfl rfl rfl).trans (alike_raiseEpisode u p _ _)).booksOk hbooks
    have hwport : w.prcAt p = { s.prcAt p with stale := .stopped } := State.prcAt_modPrc_self s p _
    have hrest : Rests p next (closeEpisode p .stale w) (endEpisode p .stale w) := by
      have h := rests_cooling (p := p) (w := w) (.inl rfl)
      rw [hwport] at h
      exact h
    obtain ⟨hended, htakes⟩ := ended_settle hsame hbooksw ⟨rfl, rfl, rfl⟩ hrest
    have htold := told_after_end (d := .telemetryStale) hbooksw hrest (.settle _) ⟨nofun, nofun, nofun⟩
      (State.raiseEpisode_holds (s := u))
    have hnumber : (u.prcAt p).episode.number = q.episode.number := by
      rw [show u.prcAt p = _ from hwport]
    rw [hnumber] at htold
    exact ⟨_, _, by rw [hexec, hevent], hended, htakes, fun htc => hended.timer (if_neg htc), htold⟩
  · let u := s.modPrc p fun q => { q with drain := .stopped }
    let w := u.raiseEpisode .drainStall p (s.oevAt p).level
    have hexec : exec (.drainExpiry p) s = .next (settle (drainEvent p s)) := if_pos hrun
    have hfires : s.drainDue p = true := by
      rw [State.drainDue, hst, Timer.due_of_running htimer hdue]
      rfl
    have hevent : drainEvent p s = endEpisode p .drainStall w := if_pos hfires
    have hsame : SameEnd p s w := ((SameEnd.refl p s).modPrc _ rfl rfl rfl).raise _ _
    have hbooksw : w.booksOk := ((alike_modPrc s p _ rfl rfl rfl).trans (alike_raiseEpisode u p _ _)).booksOk hbooks
    have hwport : w.prcAt p = { s.prcAt p with drain := .stopped } := State.prcAt_modPrc_self s p _
    have hnumber : (u.prcAt p).episode.number = q.episode.number := by
      rw [show u.prcAt p = _ from hwport]
    have hheld : w.ern.Holds .drainStall (some p) q.episode.number (s.oevAt p).level s.stamp := by
      rw [← hnumber]
      exact State.raiseEpisode_holds (s := u)
    refine ⟨fun hstall => ?_, fun hstall hno => ?_⟩
    · obtain ⟨hrest, hdisarmed⟩ := rests_stalled (p := p) (w := w) (by rw [hwport]; exact hstall)
      obtain ⟨hended, htakes⟩ := ended_settle hsame hbooksw ⟨rfl, rfl, rfl⟩ hrest
      rw [hwport] at hdisarmed
      exact ⟨_, _, by rw [hexec, hevent], hended, htakes,
        told_after_end hbooksw hrest (.settle _) ⟨nofun, nofun, nofun⟩ hheld, (Shows.settle _).tells nofun hdisarmed⟩
    · have hrest : Rests p next (closeEpisode p .drainStall w) (endEpisode p .drainStall w) := by
        have h := rests_cooling (p := p) (w := w) 
          (.inr (.inr ⟨by rw [hwport]; exact hno, .inr ⟨rfl, by rw [hwport]; exact hstall⟩⟩))
        rw [hwport] at h
        exact h
      obtain ⟨hended, htakes⟩ := ended_settle hsame hbooksw ⟨rfl, rfl, rfl⟩ hrest
      exact ⟨_, _, by rw [hexec, hevent], hended, htakes,
        told_after_end hbooksw hrest (.settle _) ⟨nofun, nofun, nofun⟩ hheld⟩
  · let r := InRecord.occupancy p seq cells d
    let u := (s.withoutRecord r).afterReport p seq cells d
    let w := restartStale p u
    have hsame : SameEnd p (s.afterReport p seq cells d) w :=
      (SameEnd.with_line (s.afterReport p seq cells d) (s.withoutRecord r).flc s.clc).modPrc _ rfl rfl rfl
    have hbooksw : w.booksOk := (alike_restartStale u p).booksOk ((alike_modOev _ p _).booksOk
      ⟨hbooks.table, hbooks.lists, hbooks.entries, hbooks.held, hbooks.bound, hbooks.unbound, hbooks.waiting,
        hbooks.admitted⟩)
    have hwport : w.prcAt p = { s.prcAt p with stale := .startAt s.now q.config.ts } := State.prcAt_modPrc_self u p _
    have hprc := (reportToPrc_drain (s := u) (levelOf s.oev.sets[q.config.levelSet] cells.toNat) ((s.oevAt p).deltaOf d)
      hst).trans (if_pos hlow)
    have hrest : Rests p next (closeEpisode p .completed w) (endEpisode p .completed w) := by
      have h := rests_cooling (p := p) (w := w) (.inr (.inr ⟨by rw [hwport]; exact hno, .inl rfl⟩))
      rw [hwport] at h
      exact h
    obtain ⟨hended, htakes⟩ := ended_settle hsame hbooksw ⟨rfl, rfl, rfl⟩ hrest
    exact ⟨_, _, exec_report_accepted ht hacc hprc, hended, htakes⟩
  · let w : State := { s with clc := s.clc.taken }
    have hbooksw : w.booksOk := booksOk_clc _ hbooks
    have heffect : effectOf (.stopRelief tag [pb]) w = stopReliefOn p w :=
      withPort_eq ((fieldAt_cons_zero pb []).trans hport) stopReliefOn _
    have hstop : stopReliefOn p w = (endEpisode p .aborted w, [0, if q.standby = none then 0 else 2]) := by
      unfold stopReliefOn
      dsimp only
      have hhas : (w.prcAt p).state.hasEpisode = true := hepisode
      have hslot : (w.prcAt p).standby = q.standby := rfl
      rw [hhas, hslot]
      cases q.standby <;> rfl
    have hrest : Rests p next (closeEpisode p .aborted w) (endEpisode p .aborted w) :=
      rests_cooling (p := p) (w := w) (.inr (.inl rfl))
    obtain ⟨hended, htakes⟩ := ended_answered (s := s)
      (s.clc.answered ⟨0xA5, tag, [0, if q.standby = none then 0 else 2]⟩) hbooksw rfl hrest
    exact ⟨_, _, exec_taken_settle (c := .stopRelief tag [pb]) rfl rfl ht (heffect.trans hstop) hrest.clc, hended,
      htakes, rfl⟩
  · let w : State := { s with clc := s.clc.taken }
    have hbooksw : w.booksOk := booksOk_clc _ hbooks
    have heffect : effectOf (.disarm tag [pb]) w = disarmOn p w :=
      withPort_eq ((fieldAt_cons_zero pb []).trans hport) disarmOn _
    have hdisarm : disarmOn p w = (endEpisode p .disarmed w, [0, BitVec.ofNat 8 q.state.code]) := by
      unfold disarmOn
      dsimp only
      rw [if_pos (show (w.prcAt p).state.hasEpisode = true from hepisode), be_one]
      rfl
    have hrest : Rests p .disarmed (closeEpisode p .disarmed w) (endEpisode p .disarmed w) := rests_disarmed
    obtain ⟨hended, htakes⟩ := ended_answered (s := s)
      (s.clc.answered ⟨0xA3, tag, [0, BitVec.ofNat 8 q.state.code]⟩) hbooksw rfl hrest
    exact ⟨_, _, exec_taken_settle (c := .disarm tag [pb]) rfl rfl ht (heffect.trans hdisarm) hrest.clc, hended,
      htakes, rfl⟩

end Sys2Proof.Proofs
end

section
/-! SUPPORT. The opening fill, entry by entry: collections, gates, counts and notices (R125 to R129, R142). -/

namespace Sys2Proof.Machine

/-! ### One entry placed -/

/-- The episode's counts after the fill has left an entry in a state (R125, R127, R128). -/
def Episode.counting (st : EntryState) (e : Episode) : Episode :=
  if st = .admitted then Episode.admitting 1 e
  else if st = .bypassed then { e with bypassed := sat32 (e.bypassed + 1) }
  else if st = .ungated then { e with ungated := sat32 (e.ungated + 1) }
  else e

/-- What the fill makes of the next entry, which it leaves in the state `st`. -/
structure Placed (p : Port) (i : Slot) (st : EntryState) (u t : State) : Prop where
  entryAt : AtEntry p i u t
  entry   : ∃ f, t.rtb.entry? i = some f ∧ f.state = st ∧ f.granted = 0
  counter : t.prc.episodeCounter = u.prc.episodeCounter
  history : t.ern.history = u.ern.history ∧ t.ern.written = u.ern.written
  earlier : ∀ {d : NoticeClass} {sc : Option Port} {ep val : Nat} {time : BitVec 32}, d ≠ .bypass → d ≠ .gateShortage →
    u.ern.Holds d sc ep val time → t.ern.Holds d sc ep val time
  episode : (t.prcAt p).episode = (u.prcAt p).episode.counting st
  queues  : t.aduAt p = if st = .admitted then { u.aduAt p with admitted := (u.aduAt p).admitted ++ [i] }
    else if st = .waiting then { u.aduAt p with waitQ := (u.aduAt p).waitQ ++ [i] } else u.aduAt p
  gates   : if st = .admitted ∨ st = .waiting then
      ∃ g rest k mode res, u.gpm.free = g :: rest ∧ t.gpm = u.gpm.bind g rest k mode res
    else t.gpm = u.gpm

/-- The choice that the fill makes for the next entry (R129). -/
def State.places (u : State) (p : Port) : EntryState :=
  if u.admittedCount p < (u.currentStep p).width then if u.gpm.free = [] then .ungated else .admitted
  else if (u.aduAt p).waitQ.length < 256 then if u.gpm.free = [] then .ungated else .waiting
  else .bypassed

section
variable {p : Port} {i : Slot} {e : Entry} {s : State}

theorem admitNew_blocks {g : GateNo} {rest : List GateNo} (he : s.rtb.entry? i = some e) (hf : s.gpm.free = g :: rest) :
    (admitNew p i s).ern = s.ern ∧ (admitNew p i s).prc.episodeCounter = s.prc.episodeCounter := by
  unfold admitNew
  rw [bindGate_of_free _ _ hf he]
  exact ⟨rfl, rfl⟩

theorem hold_blocks {g : GateNo} {rest : List GateNo} (he : s.rtb.entry? i = some e) (hf : s.gpm.free = g :: rest) :
    (hold p i s).ern = s.ern ∧ (hold p i s).prc.episodeCounter = s.prc.episodeCounter := by
  unfold hold
  rw [bindGate_of_free _ _ hf he]
  exact ⟨rfl, rfl⟩

theorem bypass_counter : (bypass p i s).prc.episodeCounter = s.prc.episodeCounter := by
  have hfree (u : State) : (freeGateOf i u).prc = u.prc := by unfold freeGateOf; split <;> rfl
  have hkept : (bypass p i s).prc.episodeCounter =
      (freeGateOf i (s.modAdu p fun a => { a with waitQ := a.waitQ.erase i })).prc.episodeCounter := rfl
  rw [hkept, hfree]
  rfl

variable (he : s.rtb.entry? i = some e) (hgranted : e.granted = 0)
include he hgranted

theorem placed_ungated : Placed p i .ungated s (makeUngated p i s) := by
  obtain ⟨hentry, hadu, hepisode, _, hgpm, hern⟩ := makeUngated_effects (p := p) he
  obtain ⟨_, hhistory, hwritten, _⟩ := Ern.raise_keeps s.ern .gateShortage (some p) (s.prcAt p).episode.number
    (sat32 ((s.prcAt p).episode.ungated + 1)) s.stamp
  exact {
    entryAt := atEntry_makeUngated p i s
    entry := ⟨_, hentry, rfl, hgranted⟩
    counter := rfl
    history := by rw [hern]; exact ⟨hhistory, hwritten⟩
    earlier := fun _ hd h => by rw [hern]; exact h.raise hd
    episode := hepisode
    queues := hadu
    gates := hgpm }

theorem placed_bypassed (hgate : e.gate = none) (hout : i ∉ (s.aduAt p).waitQ) :
    Placed p i .bypassed s (bypass p i s) := by
  obtain ⟨hentry, hadu, hepisode, _, hgpm, hern⟩ := bypass_unplaced (p := p) he hgate hout
  obtain ⟨_, hhistory, hwritten, _⟩ := Ern.raise_keeps s.ern .bypass (some p) (s.prcAt p).episode.number
    (sat32 ((s.prcAt p).episode.bypassed + 1)) s.stamp
  exact {
    entryAt := atEntry_bypass p i s
    entry := ⟨_, hentry, rfl, hgranted⟩
    counter := bypass_counter
    history := by rw [hern]; exact ⟨hhistory, hwritten⟩
    earlier := fun hd _ h => by rw [hern]; exact h.raise hd
    episode := hepisode
    queues := hadu
    gates := hgpm }

theorem placed_admitted {g : GateNo} {rest : List GateNo} (hf : s.gpm.free = g :: rest) :
    Placed p i .admitted s (admitNew p i s) := by
  obtain ⟨hentry, hadu, hepisode, hgpm⟩ := admitNew_effects (p := p) he hf
  obtain ⟨hern, hcounter⟩ := admitNew_blocks (p := p) he hf
  exact {
    entryAt := atEntry_admitNew p i s
    entry := ⟨_, hentry, rfl, hgranted⟩
    counter := hcounter
    history := by rw [hern]; exact ⟨rfl, rfl⟩
    earlier := fun _ _ h => by rw [hern]; exact h
    episode := hepisode
    queues := hadu
    gates := ⟨_, _, _, _, _, hf, hgpm⟩ }

theorem placed_waiting {g : GateNo} {rest : List GateNo} (hf : s.gpm.free = g :: rest)
    (hbehind : ∀ j ∈ (s.aduAt p).waitQ, s.bandOf j ≤ s.bandOf i) : Placed p i .waiting s (hold p i s) := by
  obtain ⟨hentry, hadu, hepisode, hgpm⟩ := hold_effects (p := p) he hf
  obtain ⟨hern, hcounter⟩ := hold_blocks (p := p) he hf
  exact {
    entryAt := atEntry_hold p i s
    entry := ⟨_, hentry, rfl, hgranted⟩
    counter := hcounter
    history := by rw [hern]; exact ⟨rfl, rfl⟩
    earlier := fun _ _ h => by rw [hern]; exact h
    episode := hepisode
    queues := by rw [hadu, placeInQueue_tail hbehind]; rfl
    gates := ⟨_, _, _, _, _, hf, hgpm⟩ }

end

/-- The fill places the next entry as R129 says. -/
theorem Filling.placed {p : Port} {i : Slot} {rest : List Slot} {u : State} (h : Filling p (i :: rest) u) :
    Placed p i (u.places p) u (placeAtOpening p u i) := by
  obtain ⟨e, he, hp, hseen, _⟩ := h.todo i List.mem_cons_self
  obtain ⟨hout, _⟩ := h.books.seen_out he hp hseen
  obtain ⟨hgate, _⟩ := (h.books.entryOk he).bare (by rw [hseen]; rfl)
  have htaken := takeEntry_entry he
  have hbehind : ∀ j ∈ ((takeEntry i u).aduAt p).waitQ, (takeEntry i u).bandOf j ≤ (takeEntry i u).bandOf i := by
    simp only [(atEntry_takeEntry p i u).quiet.bandOf]
    exact h.behind
  have hfrom {st : EntryState} {t : State} (hplaced : Placed p i st (takeEntry i u) t) : Placed p i st u t :=
    ⟨(atEntry_takeEntry p i u).trans hplaced.entryAt, hplaced.entry, hplaced.counter, hplaced.history, hplaced.earlier,
      hplaced.episode, hplaced.queues, hplaced.gates⟩
  have hplace : placeAtOpening p u i = if u.admittedCount p < (u.currentStep p).width then admitNew p i (takeEntry i u)
      else if (u.aduAt p).waitQ.length < 256 then hold p i (takeEntry i u) else bypass p i (takeEntry i u) := rfl
  rw [hplace]
  unfold State.places
  split
  · split
    · next hf => rw [admitNew_of_no_free (s := takeEntry i u) hf]; exact hfrom (placed_ungated htaken rfl)
    · next hf =>
      obtain ⟨g, l, hf⟩ := List.exists_cons_of_ne_nil hf
      exact hfrom (placed_admitted htaken rfl hf)
  · split
    · split
      · next hf => rw [hold_of_no_free (s := takeEntry i u) hf]; exact hfrom (placed_ungated htaken rfl)
      · next hf =>
        obtain ⟨g, l, hf⟩ := List.exists_cons_of_ne_nil hf
        exact hfrom (placed_waiting htaken rfl hf hbehind)
    · exact hfrom (placed_bypassed htaken rfl hgate hout)

end Sys2Proof.Machine
end

section
/-! SUPPORT. The opening fill as a whole (R129). -/

namespace Sys2Proof.Machine

theorem State.places_cases (u : State) (p : Port) :
    (u.places p = .admitted ∧ u.admittedCount p < (u.currentStep p).width) ∨
    (u.places p = .waiting ∧ (u.currentStep p).width ≤ u.admittedCount p ∧ (u.aduAt p).waitQ.length < 256) ∨
    (u.places p = .bypassed ∧ (u.currentStep p).width ≤ u.admittedCount p ∧ 256 ≤ (u.aduAt p).waitQ.length) ∨
    (u.places p = .ungated ∧ u.gpm.free = []) := by
  unfold State.places
  split
  · next hk =>
    split
    · next hf => exact .inr (.inr (.inr ⟨rfl, hf⟩))
    · exact .inl ⟨rfl, hk⟩
  · next hk =>
    split
    · next hl =>
      split
      · next hf => exact .inr (.inr (.inr ⟨rfl, hf⟩))
      · exact .inr (.inl ⟨rfl, Nat.not_lt.mp hk, hl⟩)
    · next hl => exact .inr (.inr (.inl ⟨rfl, Nat.not_lt.mp hk, Nat.not_lt.mp hl⟩))

/-- The entry in a slot is in a state. -/
def State.stateIs (u : State) (st : EntryState) (i : Slot) : Bool := (u.rtb.entry? i).any fun e => e.state == st

/-- The episode record with the counts that a fill has made. -/
def Episode.filled (e : Episode) (admissions bypassed ungated : Nat) : Episode :=
  { e with admissions := admissions, bypassed := bypassed, ungated := ungated }

theorem sat32_succ {n : Nat} (h : n ≤ 2048) : sat32 (n + 1) = n + 1 := by unfold sat32; omega

theorem Episode.admitting_filled {e : Episode} (h : e.overdrafts = 0) {n bypassed ungated : Nat} (hn : n ≤ 2048) :
    Episode.admitting 1 (e.filled n bypassed ungated) = e.filled (n + 1) bypassed ungated := by
  cases e
  subst h
  unfold Episode.admitting Episode.filled
  simp only [one_ne_zero, if_false, sat32_succ hn]
  rfl

theorem Episode.filled_zero {e : Episode} (h : e.admissions = 0) (hb : e.bypassed = 0) (hu : e.ungated = 0) :
    e.filled 0 0 0 = e := by
  cases e
  subst h hb hu
  rfl

theorem Placed.admittedCount {p : Port} {i : Slot} {st : EntryState} {u t : State} (h : Placed p i st u t) :
    t.admittedCount p = if st = .admitted then u.admittedCount p + 1 else u.admittedCount p := by
  rw [State.admittedCount, h.queues]
  split
  · exact List.length_append
  · split <;> rfl

/-- The opening fill that began in `b` has placed the entries `done` and has `rest` before it. -/
structure FillRun (p : Port) (b : State) (done rest : List Slot) (u : State) : Prop where
  filling : Filling p rest u
  nodup   : (done ++ rest).Nodup
  others  : OthersKept p b u
  quiet   : Quiet b u
  cru     : u.cru = b.cru
  oev     : u.oev = b.oev
  counter : u.prc.episodeCounter = b.prc.episodeCounter
  history : u.ern.history = b.ern.history ∧ u.ern.written = b.ern.written
  earlier : ∀ {d : NoticeClass} {sc : Option Port} {ep val : Nat} {time : BitVec 32}, d ≠ .bypass → d ≠ .gateShortage →
    b.ern.Holds d sc ep val time → u.ern.Holds d sc ep val time
  port    : { u.prcAt p with episode := (b.prcAt p).episode } = b.prcAt p
  episode : (u.prcAt p).episode = (b.prcAt p).episode.filled (u.admittedCount p) (done.countP (u.stateIs .bypassed))
    (done.countP (u.stateIs .ungated))
  kept    : ∀ i, i ∉ done → u.rtb.entry? i = b.rtb.entry? i
  taken   : ∀ i ∈ done, ∃ f, u.rtb.entry? i = some f ∧ f.state ≠ .seen ∧ f.granted = 0
  order   : ((u.aduAt p).admitted ++ (u.aduAt p).waitQ).Sublist done
  exact   : done.length ≤ b.gpm.free.length → (u.aduAt p).admitted = done.take (u.currentStep p).width ∧
    (u.aduAt p).waitQ = (done.drop (u.currentStep p).width).take 256
  free    : b.gpm.free.length ≤ u.gpm.free.length + done.length
  gates   : b.gpm.Enqueued u.gpm
  bound   : ∀ g, ¬(u.gpm.gate g).sameWanted (b.gpm.gate g) →
    (u.gpm.gate g).epoch = (b.gpm.gate g).epoch + 1 ∧ (u.gpm.gate g).bound ≠ none

namespace FillRun

section
variable {p : Port} {b u t : State} {done rest : List Slot} {i : Slot}

theorem length_le (h : FillRun p b done rest u) : done.length ≤ 2048 := by
  have hlen : (done ++ rest).length ≤ 2048 := by simpa using h.nodup.length_le_card
  rw [List.length_append] at hlen
  omega

theorem admittedCount_le (h : FillRun p b done rest u) : u.admittedCount p ≤ done.length :=
  ((List.sublist_append_left _ _).trans h.order).length_le

end

section
variable {p : Port} {b u t : State} {done rest : List Slot} {i : Slot} (h : FillRun p b done (i :: rest) u)
  (ht : Placed p i (u.places p) u t)
include h

theorem next_notMem : i ∉ done := fun hi =>
  (List.nodup_append.mp h.nodup).2.2 i hi i List.mem_cons_self rfl

/-- The width is not filled only when no member waits, and the members admitted are then the only ones. -/
theorem waits_of_room (hk : u.admittedCount p < (u.currentStep p).width) : (u.aduAt p).waitQ = [] :=
  h.filling.queues.filled.resolve_left (Nat.not_le.mpr hk)

include ht

theorem placed_count (st : EntryState) : (done ++ [i]).countP (t.stateIs st) =
    done.countP (u.stateIs st) + if u.places p = st then 1 else 0 := by
  obtain ⟨f, hf, hst, _⟩ := ht.entry
  have hdone : done.countP (t.stateIs st) = done.countP (u.stateIs st) := List.countP_congr fun j hj => by
    have hne : j ≠ i := fun hji => h.next_notMem (hji ▸ hj)
    rw [State.stateIs, State.stateIs, ht.entryAt.entries j hne]
  have hnew : t.stateIs st i = decide (u.places p = st) := by
    rw [State.stateIs, hf, ← hst]
    rfl
  rw [List.countP_append, hdone, List.countP_singleton, hnew]
  simp

theorem placed_order : ((t.aduAt p).admitted ++ (t.aduAt p).waitQ).Sublist (done ++ [i]) := by
  have hsame := h.order.trans (List.sublist_append_left done [i])
  rcases u.places_cases p with ⟨hst, hk⟩ | ⟨hst, _⟩ | ⟨hst, _⟩ | ⟨hst, _⟩
  · have hempty := h.waits_of_room hk
    have hold := h.order
    rw [ht.queues, hst, if_pos rfl]
    rw [hempty, List.append_nil] at hold
    show ((u.aduAt p).admitted ++ [i] ++ (u.aduAt p).waitQ).Sublist _
    rw [hempty, List.append_nil]
    exact hold.append_right [i]
  · rw [ht.queues, hst]
    show ((u.aduAt p).admitted ++ ((u.aduAt p).waitQ ++ [i])).Sublist _
    rw [← List.append_assoc]
    exact h.order.append_right [i]
  · rw [ht.queues, hst]; exact hsame
  · rw [ht.queues, hst]; exact hsame

/-- The fill takes at most one gate for an entry. -/
theorem placed_free : b.gpm.free.length ≤ t.gpm.free.length + (done ++ [i]).length := by
  have hfree := h.free
  have hlen : (done ++ [i]).length = done.length + 1 := List.length_append
  have hgates := ht.gates
  split at hgates
  · obtain ⟨g, l, k, mode, res, hu, hgpm⟩ := hgates
    rw [hgpm, Gpm.bind_free]
    rw [hu, List.length_cons] at hfree
    omega
  · rw [hgates]
    omega

/-- A gate that has been bound in the fill is not bound again, as only free gates are. -/
theorem placed_gates : b.gpm.Enqueued t.gpm ∧ ∀ g, ¬(t.gpm.gate g).sameWanted (b.gpm.gate g) →
    (t.gpm.gate g).epoch = (b.gpm.gate g).epoch + 1 ∧ (t.gpm.gate g).bound ≠ none := by
  have hgates := ht.gates
  split at hgates
  · obtain ⟨g, l, k, mode, res, hu, hgpm⟩ := hgates
    have hfree : (u.gpm.gate g).bound = none :=
      (h.filling.books.lists.2.2 g).mp (by rw [hu]; exact List.mem_cons_self)
    have hsame : (u.gpm.gate g).sameWanted (b.gpm.gate g) := by_contra fun hg => (h.bound g hg).2 hfree
    have hgate (x : GateNo) (hx : x ≠ g) : t.gpm.gate x = u.gpm.gate x := by rw [hgpm, Gpm.bind_gate, if_neg hx]
    refine ⟨h.gates.trans (hgpm ▸ Gpm.bind_enqueued ..) fun x hx => ?_, fun x hx => ?_⟩
    · have hne : x ≠ g := fun hxg => hx (hxg ▸ hsame)
      rw [hgate x hne]
      exact hx
    · by_cases hxg : x = g
      · rw [hxg, hgpm, Gpm.bind_gate, if_pos rfl, ← hsame.1]
        exact ⟨rfl, nofun⟩
      · rw [hgate x hxg] at hx ⊢
        exact h.bound x hx
  · rw [hgates]
    exact ⟨h.gates, h.bound⟩

/-- With gates enough for all, the fill admits the width's worth, holds 256 more and bypasses the rest. -/
theorem placed_exact (hfree : (done ++ [i]).length ≤ b.gpm.free.length) :
    (t.aduAt p).admitted = (done ++ [i]).take (u.currentStep p).width ∧
    (t.aduAt p).waitQ = ((done ++ [i]).drop (u.currentStep p).width).take 256 := by
  have hlen : (done ++ [i]).length = done.length + 1 := List.length_append
  obtain ⟨hadm, hwait⟩ := h.exact (by omega)
  have hcount : u.admittedCount p = min (u.currentStep p).width done.length := by
    rw [State.admittedCount, hadm, List.length_take]
  rcases u.places_cases p with ⟨hst, hk⟩ | ⟨hst, hk, hl⟩ | ⟨hst, hk, hl⟩ | ⟨_, hnone⟩
  · have hall : done.length < (u.currentStep p).width := by omega
    rw [ht.queues, hst, if_pos rfl, h.waits_of_room hk, hadm, List.take_of_length_le (by omega),
      List.take_of_length_le (by omega), List.drop_of_length_le (by omega)]
    exact ⟨rfl, rfl⟩
  · have hall : (u.currentStep p).width ≤ done.length := by omega
    have hroom : (done.drop (u.currentStep p).width).length < 256 := by
      rw [hwait, List.length_take] at hl
      omega
    have hnext : (done.drop (u.currentStep p).width ++ [i]).take 256 = done.drop (u.currentStep p).width ++ [i] :=
      List.take_of_length_le (by rw [List.length_append]; exact hroom)
    rw [ht.queues, hst, List.take_append_of_le_length hall, List.drop_append_of_le_length hall, hnext]
    show (u.aduAt p).admitted = _ ∧ (u.aduAt p).waitQ ++ [i] = _
    rw [hadm, hwait, List.take_of_length_le hroom.le]
    exact ⟨rfl, rfl⟩
  · have hall : (u.currentStep p).width ≤ done.length := by omega
    have hfull : 256 ≤ (done.drop (u.currentStep p).width).length := by
      rw [hwait, List.length_take] at hl
      omega
    rw [ht.queues, hst, List.take_append_of_le_length hall, List.drop_append_of_le_length hall,
      List.take_append_of_le_length hfull]
    exact ⟨hadm, hwait⟩
  · have := h.free
    rw [hnone, List.length_nil] at this
    omega

theorem placed_episode (hzero : (b.prcAt p).episode.overdrafts = 0) : (t.prcAt p).episode =
    (b.prcAt p).episode.filled (t.admittedCount p) ((done ++ [i]).countP (t.stateIs .bypassed))
      ((done ++ [i]).countP (t.stateIs .ungated)) := by
  have hdone := h.length_le
  have hbypassed : done.countP (u.stateIs .bypassed) ≤ 2048 := List.countP_le_length.trans hdone
  have hungated : done.countP (u.stateIs .ungated) ≤ 2048 := List.countP_le_length.trans hdone
  have hadmitted : u.admittedCount p ≤ 2048 := h.admittedCount_le.trans hdone
  rw [h.placed_count ht, h.placed_count ht, ht.episode, h.episode, ht.admittedCount]
  rcases u.places_cases p with ⟨hst, _⟩ | ⟨hst, _⟩ | ⟨hst, _⟩ | ⟨hst, _⟩ <;> rw [hst]
  · exact Episode.admitting_filled hzero hadmitted
  · rfl
  · exact congrArg (fun n => (b.prcAt p).episode.filled (u.admittedCount p) n (done.countP (u.stateIs .ungated)))
      (sat32_succ hbypassed)
  · exact congrArg (fun n => (b.prcAt p).episode.filled (u.admittedCount p) (done.countP (u.stateIs .bypassed)) n)
      (sat32_succ hungated)

omit ht in
/-- The next entry of the fill. -/
theorem step (hzero : (b.prcAt p).episode.overdrafts = 0) :
    FillRun p b (done ++ [i]) rest (placeAtOpening p u i) := by
  have ht := h.filling.placed
  obtain ⟨e, he, hp, _⟩ := h.filling.todo i List.mem_cons_self
  obtain ⟨hgates, hbound⟩ := h.placed_gates ht
  have hstep := ht.entryAt.currentStep
  have hplaces : u.places p ≠ .seen := by
    rcases u.places_cases p with ⟨hst, _⟩ | ⟨hst, _⟩ | ⟨hst, _⟩ | ⟨hst, _⟩ <;> rw [hst] <;> nofun
  exact {
    filling := h.filling.step
    nodup := by rw [List.append_assoc]; exact h.nodup
    others := h.others.trans (ht.entryAt.onlyPort he hp)
    quiet := h.quiet.trans ht.entryAt.quiet
    cru := ht.entryAt.cru.trans h.cru
    oev := ht.entryAt.oev.trans h.oev
    counter := ht.counter.trans h.counter
    history := ⟨ht.history.1.trans h.history.1, ht.history.2.trans h.history.2⟩
    earlier := fun hbypass hshortage hheld => ht.earlier hbypass hshortage (h.earlier hbypass hshortage hheld)
    port := (congrArg (fun x : PrcPort => { x with episode := (b.prcAt p).episode }) ht.entryAt.port).trans h.port
    episode := h.placed_episode ht hzero
    kept := fun j hj => by
      rw [List.mem_append, List.mem_singleton, not_or] at hj
      rw [ht.entryAt.entries j hj.2, h.kept j hj.1]
    taken := fun j hj => by
      rcases List.mem_append.mp hj with hj | hj
      · have hne : j ≠ i := fun hji => h.next_notMem (hji ▸ hj)
        rw [ht.entryAt.entries j hne]
        exact h.taken j hj
      · obtain ⟨f, hf, hst, hgranted⟩ := ht.entry
        rw [List.mem_singleton.mp hj]
        exact ⟨f, hf, hst ▸ hplaces, hgranted⟩
    order := h.placed_order ht
    exact := fun hfree => by rw [hstep]; exact h.placed_exact ht hfree
    free := h.placed_free ht
    gates := hgates
    bound := hbound }

end

theorem run {p : Port} {b u : State} {done rest : List Slot} (h : FillRun p b done rest u)
    (hzero : (b.prcAt p).episode.overdrafts = 0) : FillRun p b (done ++ rest) [] (rest.foldl (placeAtOpening p) u) := by
  induction rest generalizing done u with
  | nil => rw [List.append_nil]; exact h
  | cons i rest ih =>
    have hrun := ih (h.step hzero)
    rw [List.append_assoc] at hrun
    exact hrun

end FillRun

/-- The opening fill of a port whose entries are SEEN (R129). -/
theorem fillRun_openingFill {p : Port} {b : State} (h : b.booksOk) (hst : (b.prcAt p).state = .relief) (hseen : b.allSeen p)
    (hzero : (b.prcAt p).episode.admissions = 0 ∧ (b.prcAt p).episode.overdrafts = 0 ∧ (b.prcAt p).episode.bypassed = 0 ∧
      (b.prcAt p).episode.ungated = 0) : FillRun p b (b.fillOrder p) [] (openingFill p b) := by
  have hstart := filling_start h hst hseen
  have hempty := h.empty_of_allSeen hseen
  obtain ⟨hadmissions, hoverdrafts, hbypassed, hungated⟩ := hzero
  refine FillRun.run (done := []) (u := b) ?_ hoverdrafts
  exact {
    filling := hstart
    nodup := hstart.nodup
    others := .refl p b
    quiet := .refl b
    cru := rfl
    oev := rfl
    counter := rfl
    history := ⟨rfl, rfl⟩
    earlier := fun _ _ hheld => hheld
    port := rfl
    episode := by
      have hcount : b.admittedCount p = 0 := by rw [State.admittedCount, hempty]; rfl
      rw [hcount]
      exact (Episode.filled_zero hadmissions hbypassed hungated).symm
    kept := fun _ _ => rfl
    taken := nofun
    order := by rw [hempty]; exact List.nil_sublist _
    exact := fun _ => by rw [hempty]; simp
    free := by simp
    gates := .refl _
    bound := fun _ hg => absurd (.refl _) hg }

end Sys2Proof.Machine
end

section
/-! SUPPORT. What the opening of an episode leaves (R95, R110, R111, R122, R129). -/

namespace Sys2Proof.Machine

/-! ### The counts of a fill -/

theorem FillRun.countP_table {p : Port} {b u : State} (h : FillRun p b (b.fillOrder p) [] u) (hseen : b.allSeen p)
    {st : EntryState} (hst : st ≠ .seen) :
    u.rtb.table.countP (fun x => x.2.port == p && x.2.state == st) = (b.fillOrder p).countP (u.stateIs st) := by
  let stands : Slot → Bool := fun i => (u.rtb.entry? i).any fun e => e.port == p && e.state == st
  have hrise := h.filling.books.table.slots_rise
  have htable : u.rtb.table.countP (fun x => x.2.port == p && x.2.state == st) =
      (u.rtb.table.map (·.1)).countP stands := by
    rw [List.countP_map]
    refine List.countP_congr fun x hx => ?_
    show _ ↔ (u.rtb.entry? x.1).any _ = true
    rw [Rtb.entry?_of_mem hrise hx]
    rfl
  have hnodup : (b.fillOrder p).Nodup := by
    have := h.nodup
    rwa [List.append_nil] at this
  rw [htable, List.countP_eq_length_filter, List.countP_eq_length_filter]
  refine ((List.perm_ext_iff_of_nodup (h.filling.books.table.slots_nodup.filter _) (hnodup.filter _)).mpr fun i => ?_).length_eq
  rw [List.mem_filter, List.mem_filter]
  constructor
  · rintro ⟨_, hstands⟩
    obtain ⟨e, he, hwhich⟩ := (Option.any_eq_true ..).mp hstands
    obtain ⟨hp, hstate⟩ : e.port = p ∧ e.state = st := by simpa using hwhich
    refine ⟨by_contra fun hout => ?_, ?_⟩
    · rw [h.kept i hout] at he
      exact hst (hstate.symm.trans (hseen i e he hp))
    · rw [State.stateIs, he, ← hstate]
      exact decide_eq_true rfl
  · rintro ⟨hi, hstands⟩
    have harrival : i ∈ u.rtb.arrival[p] := by
      rw [fillOrder_eq, List.mem_filter, State.mem_bandArrival] at hi
      rw [h.quiet.arrival]
      exact hi.1
    obtain ⟨e, he, hp⟩ := ((h.filling.books.table.2 p).2 i).mp harrival
    rw [State.stateIs, he] at hstands
    refine ⟨List.mem_map.mpr ⟨(i, e), Rtb.mem_of_entry? he, rfl⟩, ?_⟩
    show (u.rtb.entry? i).any _ = true
    rw [he]
    simp only [Option.any_some, hp, beq_self_eq_true, Bool.true_and] at hstands ⊢
    exact hstands

/-! ### The state that an opening leaves -/

/-- The port after a fill. -/
theorem FillRun.prcAt {p : Port} {b u : State} {done rest : List Slot} (h : FillRun p b done rest u) : u.prcAt p =
    { b.prcAt p with
      episode := (b.prcAt p).episode.filled (u.admittedCount p) (done.countP (u.stateIs .bypassed))
        (done.countP (u.stateIs .ungated)) } := by
  have := congrArg (fun x : PrcPort => { x with episode := (u.prcAt p).episode }) h.port
  rw [← h.episode]
  exact this

/-- The classes of notice that an opening may raise. -/
def openingClasses : List NoticeClass := [.bypass, .gateShortage, .episodeStep, .episodeOpen, .standbyStart]

theorem ne_of_notMem_openingClasses {d : NoticeClass} (h : d ∉ openingClasses) :
    d ≠ .bypass ∧ d ≠ .gateShortage ∧ d ≠ .episodeStep ∧ d ≠ .episodeOpen ∧ d ≠ .standbyStart := by
  simpa [openingClasses] using h

/-- The state that an opening has left: the fill has ended in `u`, the first step has been entered, and notices have
been raised since. -/
structure Opened (p : Port) (o : Origin) (q : ProgNo) (s u v : State) : Prop where
  run     : FillRun p (beginEpisode p o q s) (s.fillOrder p) [] u
  blocks  : v = { rerate p (stepStarted p 0 u) with ern := v.ern }
  history : v.ern.history = s.ern.history ∧ v.ern.written = s.ern.written
  step    : v.ern.Holds .episodeStep (some p) (nextEpisodeNumber s.prc.episodeCounter) 0 s.stamp
  opened  : v.ern.Holds .episodeOpen (some p) (nextEpisodeNumber s.prc.episodeCounter)
    (q.val + if o = .manual then 128 else 0) s.stamp
  earlier : ∀ {d : NoticeClass} {sc : Option Port} {ep val : Nat} {time : BitVec 32}, d ∉ openingClasses →
    s.ern.Holds d sc ep val time → v.ern.Holds d sc ep val time

theorem Opened.standbyStart {p : Port} {o : Origin} {q : ProgNo} {s u v : State} (h : Opened p o q s u v) (n : Nat) :
    Opened p o q s u (v.raiseEpisode .standbyStart p n) := by
  obtain ⟨_, hhistory, hwritten, _⟩ := Ern.raise_keeps v.ern .standbyStart (some p) (v.prcAt p).episode.number n v.stamp
  exact ⟨h.run, by have := h.blocks; rw [this]; rfl, ⟨hhistory.trans h.history.1, hwritten.trans h.history.2⟩,
    h.step.raise nofun, h.opened.raise nofun, fun hd hheld => by
      obtain ⟨_, _, _, _, hne⟩ := ne_of_notMem_openingClasses hd
      exact (h.earlier hd hheld).raise hne⟩

theorem beginEpisode_blocks (p : Port) (o : Origin) (q : ProgNo) (s : State) :
    (beginEpisode p o q s).ern = s.ern ∧ (beginEpisode p o q s).gpm = s.gpm ∧ (beginEpisode p o q s).rtb = s.rtb ∧
    (beginEpisode p o q s).flc = s.flc ∧ (beginEpisode p o q s).tmb = s.tmb ∧
    (beginEpisode p o q s).prc.episodeCounter = nextEpisodeNumber s.prc.episodeCounter :=
  ⟨rfl, rfl, rfl, rfl, rfl, rfl⟩

theorem currentStep_eq_stepAt {p : Port} {u : State} {index : Nat} (h : (u.prcAt p).episode.stepIndex = index) :
    u.currentStep p = u.stepAt p index := by
  rw [← h]; rfl

section
variable {p : Port} {s : State} (o : Origin) (q : ProgNo) (h : s.booksOk) (hseen : s.allSeen p)
include h hseen

theorem fillRun_beginEpisode :
    FillRun p (beginEpisode p o q s) (s.fillOrder p) [] (openingFill p (beginEpisode p o q s)) := by
  have hbooks : (beginEpisode p o q s).booksOk := (keptAt_beginEpisode p s o q hseen).books h
  exact fillRun_openingFill hbooks (beginEpisode_state o q) hseen
    (by rw [beginEpisode_prcAt p s o q]; exact ⟨rfl, rfl, rfl, rfl⟩)

theorem opened_openEpisode : Opened p o q s (openingFill p (beginEpisode p o q s)) (openEpisode p o q s) := by
  have hrun := fillRun_beginEpisode (p := p) o q h hseen
  obtain ⟨hern, _, _, _, htmb, _⟩ := beginEpisode_blocks p o q s
  have hopen := openEpisode_eq p s o q
  have hvalue : mark128 (o == .manual) = if o = .manual then 128 else 0 := by cases o <;> rfl
  rw [enterStep_eq, hvalue] at hopen
  have hbegun := beginEpisode_prcAt p s o q
  generalize openingFill p (beginEpisode p o q s) = u at hrun hopen
  have hport := hrun.prcAt
  rw [hbegun] at hport
  have hindex : (u.prcAt p).episode.stepIndex = 0 := by rw [hport]; rfl
  have hnumber : (u.prcAt p).episode.number = nextEpisodeNumber s.prc.episodeCounter := by rw [hport]; rfl
  have hrefill : refill p (stepStarted p 0 u) = stepStarted p 0 u := refill_eq_self fun _ => by
    rw [stepStarted_currentStep, ← currentStep_eq_stepAt hindex]
    exact hrun.filling.queues.filled
  rw [hrefill] at hopen
  have hfirst : (rerate p (stepStarted p 0 u)).ern = u.ern := by rw [rerate_rest]; rfl
  have hstamp : (rerate p (stepStarted p 0 u)).stamp = s.stamp := by
    rw [rerate_rest]
    show BitVec.ofNat 32 u.tmb.micros = _
    rw [hrun.quiet.tmb, htmb]
    rfl
  have hnumbered : ((rerate p (stepStarted p 0 u)).prcAt p).episode.number = nextEpisodeNumber s.prc.episodeCounter := by
    rw [rerate_prcAt, stepStarted_prcAt]
    exact hnumber
  rw [hopen]
  generalize hw : rerate p (stepStarted p 0 u) = w at hfirst hstamp hnumbered
  have hstep := State.raiseEpisode_holds (s := w) (c := .episodeStep) (p := p) (v := 0 + mark128 false)
  have hopened := State.raiseEpisode_holds (s := w.raiseEpisode .episodeStep p (0 + mark128 false)) (c := .episodeOpen)
    (p := p) (v := q.val + if o = .manual then 128 else 0)
  obtain ⟨_, hhistory, hwritten, _⟩ := Ern.raise_keeps w.ern .episodeStep (some p) (w.prcAt p).episode.number
    (0 + mark128 false) w.stamp
  obtain ⟨_, hhistory', hwritten', _⟩ := Ern.raise_keeps (w.raiseEpisode .episodeStep p (0 + mark128 false)).ern .episodeOpen
    (some p) (w.prcAt p).episode.number (q.val + if o = .manual then 128 else 0) w.stamp
  have hsame : (w.raiseEpisode .episodeStep p (0 + mark128 false)).prcAt p = w.prcAt p ∧
      (w.raiseEpisode .episodeStep p (0 + mark128 false)).stamp = w.stamp := ⟨rfl, rfl⟩
  rw [hnumbered, hstamp] at hstep
  rw [hsame.1, hsame.2, hnumbered, hstamp] at hopened
  refine ⟨hrun, by rw [hw]; rfl, ⟨?_, ?_⟩, hstep.raise nofun, hopened, fun hd hheld => ?_⟩
  · exact (hhistory'.trans hhistory).trans (by rw [hfirst, hrun.history.1, hern])
  · exact (hwritten'.trans hwritten).trans (by rw [hfirst, hrun.history.2, hern])
  · obtain ⟨hbypass, hshortage, hstep, hopen, _⟩ := ne_of_notMem_openingClasses hd
    have hfilled := hrun.earlier hbypass hshortage hheld
    rw [← hfirst] at hfilled
    exact (hfilled.raise hstep).raise hopen

end

/-! ### The statement of an opening, at the end of the event -/

/-- The end of an event whose blocks have left `v`: but for the line and the notices, it is the settled state. -/
structure Ends (v t : State) : Prop where
  shows : Shows v t
  lane  : t = { settle v with ern := t.ern, clc := t.clc }

theorem Ends.settle (v : State) : Ends v (settle v) := ⟨.settle v, rfl⟩

theorem Ends.answered (v : State) (c : Clc) : Ends v { Machine.settle v with ern := (fabPump v).ern, clc := c } :=
  ⟨.answered v c, rfl⟩

theorem Ends.rated {v t : State} {p : Port} (h : Ends v t) (hv : v.rated p) : t.rated p := by
  rw [h.lane]
  exact hv.settle

theorem Ends.orders {s v t : State} (h : Ends v t)
    (hflc : v.flc.tx = s.flc.tx ∧ v.flc.link = s.flc.link ∧ v.flc.outSeq = s.flc.outSeq) (hgpm : s.gpm.Enqueued v.gpm) :
    ∃ added, OrdersMade added s t := by
  rw [h.lane]
  exact ordersMade_settle hflc hgpm

section
variable {p : Port} {o : Origin} {q : ProgNo} {s u v t : State}

/-- The port that an opening leaves. -/
theorem Opened.prcAt (h : Opened p o q s u v) : v.prcAt p = { s.prcAt p with
    state := .relief, qualified := false, debounce := .stopped, drain := .stopped, cooldown := .stopped
    guard := (v.currentStep p).guardFrom s.now
    stale := if (s.prcAt p).stale.active then (s.prcAt p).stale else .running s.now (s.prcAt p).config.ts
    episode := { Episode.start (nextEpisodeNumber s.prc.episodeCounter) o q s.now with
      stepsEntered := 1, admissions := v.admittedCount p
      bypassed := (s.fillOrder p).countP (u.stateIs .bypassed)
      ungated := (s.fillOrder p).countP (u.stateIs .ungated) } } := by
  have hport := h.run.prcAt
  rw [beginEpisode_prcAt] at hport
  have hnow : u.now = s.now := by rw [State.now, h.run.quiet.tmb]; rfl
  have hstep : v.currentStep p = u.stepAt p 0 := by
    rw [h.blocks]
    exact (rerate_currentStep ..).trans (stepStarted_currentStep ..)
  have hcount : v.admittedCount p = u.admittedCount p := by
    rw [h.blocks]
    exact congrArg (fun a : AduPort => a.admitted.length) (rerate_aduAt ..)
  have hprc : v.prcAt p = (stepStarted p 0 u).prcAt p := by
    rw [h.blocks]
    exact rerate_prcAt ..
  rw [hprc, stepStarted_prcAt, hport, hstep, hcount, hnow]
  rfl

theorem Opened.blocks_eq (h : Opened p o q s u v) : v.rtb = u.rtb ∧ v.aduAt p = u.aduAt p ∧ v.oev = u.oev ∧
    v.cruAt p = { u.cruAt p with s := 0 } ∧ v.flc = u.flc ∧ v.gpm = (rerate p (stepStarted p 0 u)).gpm ∧
    v.prc.episodeCounter = u.prc.episodeCounter := by
  have hcru : (stepStarted p 0 u).cruAt p = { u.cruAt p with s := 0 } := (stepStarted_cruAt ..).trans (if_pos rfl)
  rw [h.blocks, rerate_rest]
  exact ⟨rfl, rfl, rfl, hcru, rfl, rfl, rfl⟩

theorem Opened.currentStep (h : Opened p o q s u v) : v.currentStep p = u.currentStep p := by
  have hindex : (u.prcAt p).episode.stepIndex = 0 := by
    rw [h.run.prcAt, beginEpisode_prcAt]
    rfl
  rw [h.blocks, currentStep_eq_stepAt hindex]
  exact (rerate_currentStep ..).trans (stepStarted_currentStep ..)

theorem Opened.othersKept (h : Opened p o q s u v) : OthersKept p s v := by
  have hbegun : OthersKept p s (beginEpisode p o q s) := by
    unfold beginEpisode
    dsimp only
    have hcounter (n : Nat) : OthersKept p s { s with prc := { s.prc with episodeCounter := n } } :=
      .of_blocks rfl rfl rfl rfl
    exact ((((hcounter _).trans (othersKept_modEpisode _)).trans (othersKept_modOev _)).trans (othersKept_modCru _)).trans
      ((othersKept_modPrc _ (by rw [PrcPort.enter_relief])).trans (othersKept_modPrc _ rfl))
  have hrated : OthersKept p u (rerate p (stepStarted p 0 u)) := (othersKept_stepStarted 0).trans othersKept_rerate
  rw [h.blocks]
  exact ((hbegun.trans h.run.others).trans hrated).trans (othersKept_ern _)

/-- The gates that the fill has bound go on being changed when the port is rated. -/
theorem Opened.gates (h : Opened p o q s u v) : s.gpm.Enqueued v.gpm := by
  obtain ⟨_, _, _, _, _, hgpm, _⟩ := h.blocks_eq
  rw [hgpm]
  refine h.run.gates.trans (rerate_enqueued p (stepStarted p 0 u)) fun g hg hsame => ?_
  obtain ⟨hepoch, _⟩ := h.run.bound g hg
  obtain ⟨hback, _⟩ := hsame
  rw [(rerate_gate_keeps p (stepStarted p 0 u) g).1] at hback
  exact epoch_succ_ne _ (hepoch.symm.trans hback)

theorem Opened.rated (h : Opened p o q s u v) : v.rated p := by
  have hbooks : (stepStarted p 0 u).booksOk := (keptAt_stepStarted p u 0).books h.run.filling.books
  rw [h.blocks]
  exact hbooks.rated_rerate p

theorem Opened.taken (h : Opened p o q s u v) (hbooks : s.booksOk) {i : Slot} {e : Entry} (he : s.rtb.entry? i = some e)
    (hp : e.port = p) (hel : e.eligible = true) (hst : e.state = .seen) :
    ∃ f, v.rtb.entry? i = some f ∧ f.state ≠ .seen ∧ f.granted = 0 := by
  obtain ⟨hrtb, _⟩ := h.blocks_eq
  rw [hrtb]
  refine h.run.taken i ?_
  rw [fillOrder_eq, List.mem_filter, hbooks.mem_bandArrival, State.standsIn_iff]
  exact ⟨⟨e, he, hp⟩, e, he, hel, hst⟩

/-- The opening of an episode, at the end of the event that opens it (R95, R110, R111, R122, R129). -/
theorem Opened.episodeOpened (h : Opened p o q s u v) (hbooks : s.booksOk) (hseen : s.allSeen p) (ht : Ends v t) :
    EpisodeOpened p o q s t := by
  obtain ⟨hrtb, hadu, hoev, hcru, hflc, _, hcounter⟩ := h.blocks_eq
  have hport := h.prcAt
  have hshow := ht.shows
  have hcurrent : t.currentStep p = v.currentStep p := by rw [hshow.blocks]; rfl
  have hcount : t.admittedCount p = v.admittedCount p := by rw [State.admittedCount, hshow.aduAt]; rfl
  have hwidth : v.admittedCount p = u.admittedCount p := by rw [State.admittedCount, hadu]; rfl
  have hnumber : t.prc.episodeCounter = nextEpisodeNumber s.prc.episodeCounter := by
    rw [hshow.prc, hcounter, h.run.counter]
    rfl
  have hbands (st : EntryState) (hst : st ≠ .seen) :
      t.rtb.table.countP (fun x => x.2.port == p && x.2.state == st) = (s.fillOrder p).countP (u.stateIs st) := by
    rw [hshow.rtb, hrtb]
    exact h.run.countP_table hseen hst
  have hqueues := h.run.filling.queues
  exact {
    number := hnumber
    record := by rw [hshow.prcAt, hport, hnumber, hcount, hbands .bypassed nofun, hbands .ungated nofun]; rfl
    state := by rw [hshow.prcAt, hport]; exact ⟨rfl, rfl⟩
    timers := by rw [hshow.prcAt, hport, hcurrent]; exact ⟨rfl, rfl, rfl, rfl, rfl⟩
    peak := by
      rw [hshow.oevAt, State.oevAt, hoev, h.run.oev]
      exact State.oevAt_modOev_self ..
    credit := by
      rw [hshow.cruAt, hcru, State.cruAt, h.run.cru]
      exact congrArg (fun c : CruPort => { c with s := 0 }) (State.cruAt_modCru_self ..)
    filled := by
      rw [hcount, hwidth, hcurrent, h.currentStep, hshow.aduAt, hadu]
      exact ⟨hqueues.within, hqueues.filled.imp (hqueues.within.antisymm ·) id, hqueues.length⟩
    taken := fun i e he hp hel hst => by rw [hshow.rtb]; exact h.taken hbooks he hp hel hst
    order := by
      rw [hshow.aduAt, hadu, hcurrent, h.currentStep]
      exact ⟨h.run.order, h.run.exact⟩
    rated := ht.rated h.rated
    orders := ht.orders (by rw [hflc, h.run.quiet.flc]; exact ⟨rfl, rfl, rfl⟩) h.gates
    notices := by
      rw [hnumber]
      exact ⟨hshow.tells nofun h.step, hshow.tells nofun h.opened⟩
    history := ⟨hshow.history.1.trans h.history.1, hshow.history.2.trans h.history.2⟩
    others := h.othersKept.trans (hshow.others p) }

end

end Sys2Proof.Machine
end

section
/-! SUPPORT. The events that open an episode (R46, R91 to R93, R103, R105). -/

namespace Sys2Proof.Machine

/-- Between `s` and `w`, the state in which an event opens an episode, only what the opening does not read has changed. -/
structure SameOpening (p : Port) (s w : State) : Prop where
  blocks  : w = { s with prc := w.prc, clc := w.clc, flc := w.flc }
  line    : w.flc.tx = s.flc.tx ∧ w.flc.link = s.flc.link ∧ w.flc.outSeq = s.flc.outSeq
  others  : ∀ q, q ≠ p → w.prcAt q = s.prcAt q
  config  : (w.prcAt p).config = (s.prcAt p).config
  stale   : (w.prcAt p).stale = (s.prcAt p).stale
  counter : w.prc.episodeCounter = s.prc.episodeCounter

section
variable {p : Port} {o : Origin} {q : ProgNo} {s w t : State}

theorem SameOpening.othersKept (h : SameOpening p s w) : OthersKept p s w := by
  refine ⟨fun q hq => ⟨h.others q hq, ?_, ?_, ?_⟩, fun i e he _ => ?_, h.config, ?_, ?_, ?_, ?_, ?_, ?_, ?_⟩ <;>
    rw [h.blocks]
  exacts [rfl, rfl, rfl, he]

theorem OrdersMade.of_same {added : List GateNo} (h : SameOpening p s w) (ht : OrdersMade added w t) :
    OrdersMade added s t := by
  have hgpm : w.gpm = s.gpm := by rw [h.blocks]
  obtain ⟨htx, hlink, hseq⟩ := h.line
  unfold OrdersMade State.laneTakes at ht ⊢
  rw [hgpm, htx, hlink, hseq] at ht
  exact ht

/-- An opening reads no more of the state it finds than it may. -/
theorem EpisodeOpened.of_same (h : SameOpening p s w) (ht : EpisodeOpened p o q w t) : EpisodeOpened p o q s t := by
  have hothers := h.othersKept.trans ht.others
  obtain ⟨added, hadded⟩ := ht.orders
  have horders : ∃ added, OrdersMade added s t := ⟨added, hadded.of_same h⟩
  have hw := h.blocks
  have hstale := h.stale
  have hconfig := h.config
  have hcounter := h.counter
  have hnow : w.now = s.now := by rw [hw]; rfl
  have hstamp : w.stamp = s.stamp := by rw [hw]; rfl
  have hrtb : w.rtb = s.rtb := by rw [hw]
  have hern : w.ern = s.ern := by rw [hw]
  have hoev : w.oevAt p = s.oevAt p := by rw [hw]; rfl
  have hfree : w.gpm.free = s.gpm.free := by rw [hw]
  have hband : w.inBandOrder p .seen = s.inBandOrder p .seen := by rw [hw]; rfl
  obtain ⟨number, record, state, timers, peak, credit, filled, taken, order, rated, _, notices, history, _⟩ := ht
  rw [hcounter] at number
  rw [hstamp, hnow] at record
  rw [hstale, hnow, hconfig] at timers
  rw [hoev] at peak
  rw [hrtb] at taken
  rw [hband, hfree] at order
  rw [hstamp] at notices
  rw [hern] at history
  exact ⟨number, record, state, timers, peak, credit, filled, taken, order, rated, horders, notices, history, hothers⟩

theorem SameOpening.modPrc (f : PrcPort → PrcPort) (hconfig : (f (s.prcAt p)).config = (s.prcAt p).config)
    (hstale : (f (s.prcAt p)).stale = (s.prcAt p).stale) : SameOpening p s (s.modPrc p f) :=
  ⟨rfl, ⟨rfl, rfl, rfl⟩, fun q hq => State.prcAt_modPrc_ne p s f hq, by rw [State.prcAt_modPrc_self, hconfig],
    by rw [State.prcAt_modPrc_self, hstale], rfl⟩

theorem SameOpening.with_clc (c : Clc) : SameOpening p s { s with clc := c } :=
  ⟨rfl, ⟨rfl, rfl, rfl⟩, fun _ _ => rfl, rfl, rfl, rfl⟩

/-- An opening that ends its event. -/
theorem episodeOpened_settle (h : s.booksOk) (hseen : s.allSeen p) : EpisodeOpened p o q s (settle (openEpisode p o q s)) :=
  (opened_openEpisode o q h hseen).episodeOpened h hseen (.settle _)

/-- The AUTO opening of a port in a qualified WATCH whose opening condition holds (R93). -/
theorem checkOpening_opened (h : s.booksOk) (hst : (s.prcAt p).state = .watch) (hq : (s.prcAt p).qualified = true)
    (hn : (s.prcAt p).config.program = q) (hfan : (s.prcAt p).config.fanIn ≤ s.fanIn p) (hprog : s.pgs.programs[q] ≠ []) :
    EpisodeOpened p .auto q s (settle (checkOpening p s)) := by
  subst hn
  have hopen : checkOpening p s = openEpisode p .auto (s.prcAt p).config.program s :=
    if_pos (openingHolds_iff.mpr ⟨hst, hq, hfan, hprog⟩)
  rw [hopen]
  exact episodeOpened_settle h (h.allSeen (by rw [hst]; rfl))

end

/-- The books of a state that differs in the fabric link or the Control Line only. -/
theorem booksOk_line {s : State} (f : Flc) (c : Clc) (h : s.booksOk) : State.booksOk { s with flc := f, clc := c } :=
  ⟨h.table, h.lists, h.entries, h.held, h.bound, h.unbound, h.waiting, h.admitted⟩

end Sys2Proof.Machine

namespace Sys2Proof.Proofs

open Sys2Proof Sys2Proof.Machine

/-- Settles O45. -/
theorem episodeOpens : Obligations.EpisodeOpens := by
  intro s p hrun hbooks hok c
  refine ⟨fun a b hst htimer hdue hfan hprog => ?_, fun seq cells d ht hacc hst hqual hlw hfan hprog => ?_,
    fun h ing srv i cls x ht hl hn hi hlow hdec hel hst hqual hfan hprog => ?_,
    fun tag pb qb q hp hq ht hst hprog => ?_⟩
  · let w := s.modPrc p fun q => { q with debounce := .stopped, qualified := true }
    have hexec : exec (.debounceExpiry p) s = .next (settle (debounceEvent p s)) := if_pos hrun
    have hfires : s.debounceDue p = true := by
      rw [State.debounceDue, hst, Timer.due_of_running htimer hdue]
      rfl
    have hwport : w.prcAt p = { s.prcAt p with debounce := .stopped, qualified := true } := State.prcAt_modPrc_self s p _
    have hbooksw : w.booksOk := (alike_modPrc s p _ rfl rfl rfl).booksOk hbooks
    have hopened : EpisodeOpened p .auto c.program w (settle (checkOpening p w)) :=
      checkOpening_opened hbooksw (by rw [hwport]; exact hst) (by rw [hwport]) (by rw [hwport]) (by rw [hwport]; exact hfan)
        hprog
    have hevent : debounceEvent p s = checkOpening p w := if_pos hfires
    exact ⟨_, by rw [hexec, hevent], hopened.of_same (.modPrc _ rfl rfl)⟩
  · let r := InRecord.occupancy p seq cells d
    let u := (s.withoutRecord r).afterReport p seq cells d
    let w := restartStale p u
    have hwport : w.prcAt p = { s.prcAt p with stale := .startAt s.now c.ts } := State.prcAt_modPrc_self u p _
    have hbooksw : w.booksOk := (alike_restartStale u p).booksOk ((alike_modOev _ p _).booksOk
      (booksOk_line (s.withoutRecord r).flc s.clc hbooks))
    have hopened : EpisodeOpened p .auto c.program w (settle (checkOpening p w)) :=
      checkOpening_opened hbooksw (by rw [hwport]; exact hst) (by rw [hwport]; exact hqual) (by rw [hwport])
        (by rw [hwport]; exact hfan) hprog
    have hprc := (reportToPrc_watch (s := u) (levelOf s.oev.sets[c.levelSet] cells.toNat) ((s.oevAt p).deltaOf d)
      hst).trans (if_neg (Nat.not_lt_of_le hlw))
    have hrestart : w = u.modPrc p fun q => { q with stale := .running s.now c.ts } := State.modPrc_congr u p _ _ rfl
    have hsame : SameOpening p ((s.afterReport p seq cells d).modPrc p fun q => { q with stale := .running s.now c.ts }) w := by
      rw [hrestart]
      exact ⟨rfl, ⟨rfl, rfl, rfl⟩, fun _ _ => rfl, rfl, rfl, rfl⟩
    exact ⟨_, exec_report_accepted ht hacc hprc, hopened.of_same hsame⟩
  · let r := InRecord.sighting h p ing srv
    let m := createEntry i h p ing srv (s.withoutRecord r)
    have hcreated := created_eq (s := s.withoutRecord r) hdec h p ing
    have hm := createEntry_created i h p ing srv (s.withoutRecord r) hi
    rw [hcreated] at hm
    have hbooksm : m.booksOk := (keptAt_createEntry (s := s.withoutRecord r) hi hl).books
      (booksOk_line (s.withoutRecord r).flc s.clc hbooks)
    have hfanm : m.fanIn p = s.fanIn p + 1 := createEntry_fanIn i h p ing srv (s.withoutRecord r) (by rw [hcreated]; exact hel)
    have hlearn : takeSighting h p ing srv (s.withoutRecord r) = checkOpening p m := by
      rw [takeSighting_new _ _ _ _ (s.withoutRecord r) hl hn, learn_in_slot _ _ _ _ _ (s.withoutRecord r) hi hlow,
        if_pos (by rw [hcreated]; exact hel)]
      have hstate : ((s.withoutRecord r).prcAt p).state = .watch := hst
      unfold handOver
      rw [hstate]
      rfl
    have hexec := exec_sighting_taken ht
    rw [hlearn] at hexec
    exact ⟨m, _, hexec, hm, checkOpening_opened hbooksm hst hqual rfl (by rw [hfanm]; exact hfan) hprog⟩
  · let w : State := { s with clc := s.clc.taken }
    have hbooksw : w.booksOk := booksOk_clc _ hbooks
    have hnone : (w.prcAt p).state.hasEpisode = false := by
      show (s.prcAt p).state.hasEpisode = false
      rcases hst with hst | hst | hst <;> rw [hst] <;> rfl
    have harmed : (w.prcAt p).state ≠ .disarmed := by
      show (s.prcAt p).state ≠ .disarmed
      rcases hst with hst | hst | hst <;> rw [hst] <;> nofun
    have hseen := hbooksw.allSeen hnone
    have hopened := opened_openEpisode (p := p) (s := w) .manual q hbooksw hseen
    have hprogram : fieldAt [pb, qb] 1 1 = q.val := ((fieldAt_cons_succ ..).trans (fieldAt_cons_zero ..)).trans hq
    have hstart : effectOf (.startRelief tag [pb, qb]) w =
        (openEpisode p .manual q w, 0 :: be 4 ((openEpisode p .manual q w).prcAt p).episode.number) :=
      (withPort_eq ((fieldAt_cons_zero pb [qb]).trans hp) _ _).trans
        ((startReliefChecked_armed (s := w) hprogram harmed hprog).trans (startReliefOn_opens hnone))
    have hclc : (openEpisode p .manual q w).clc = s.clc.taken := (quiet_openEpisode p .manual q w).clc
    generalize openEpisode p .manual q w = v at hopened hstart hclc
    have hnumber : (v.prcAt p).episode.number = nextEpisodeNumber s.prc.episodeCounter := by rw [hopened.prcAt]; rfl
    rw [hnumber] at hstart
    have hended := hopened.episodeOpened hbooksw hseen
      (.answered v (s.clc.answered ⟨0xA4, tag, 0 :: be 4 (nextEpisodeNumber s.prc.episodeCounter)⟩))
    have hcounter := hended.number
    exact ⟨_, exec_taken_settle (c := .startRelief tag [pb, qb]) rfl rfl ht hstart hclc, hended.of_same (.with_clc _),
      by rw [hcounter]; rfl⟩

end Sys2Proof.Proofs
end

section
/-! SUPPORT. A standby program that starts when an episode ends (R103). -/

namespace Sys2Proof.Machine

section
variable {p : Port} {o : EpisodeOutcome} {n : ProgNo} {s w : State}

/-- The end of an episode with a standby program that its outcome lets start (R103, second row). -/
theorem endEpisode_standby (hslot : (w.prcAt p).standby = some n)
    (ho : o = .completed ∨ o = .drainStall ∧ (w.prcAt p).config.stall = .cooldown) : endEpisode p o w =
      (openEpisode p .manual n (clearStandby p (closeEpisode p o w))).raiseEpisode .standbyStart p n.val := by
  have hconfig : ((closeEpisode p o w).prcAt p).config = (w.prcAt p).config := by rw [closeEpisode_prcAt]
  unfold endEpisode
  generalize closeEpisode p o w = c at hconfig
  unfold afterEnd
  rcases ho with rfl | ⟨rfl, hstall⟩
  · rw [hslot]
  · rw [hslot, hconfig, hstall]

/-- What the end of an episode with a standby program leaves and tells, within its one event. -/
structure StandbyStarts (p : Port) (o : EpisodeOutcome) (n : ProgNo) (s w m t : State) : Prop where
  ended   : EpisodeEnded p o .drain s m.gpm m
  opened  : EpisodeOpened p .manual n m t
  finish  : t.announces .episodeEnd (some p) (s.prcAt p).episode.number o.code s.stamp
  start   : t.announces .standbyStart (some p) t.prc.episodeCounter n.val s.stamp
  earlier : ∀ {d : NoticeClass} {sc : Option Port} {ep val : Nat} {time : BitVec 32}, d ∉ openingClasses →
    d ≠ .episodeEnd → d ≠ .linkState → w.ern.Holds d sc ep val time → t.announces d sc ep val time

theorem standbyStarts (hs : SameEnd p s w) (h : w.booksOk) (hst : (w.prcAt p).state = .drain)
    (hslot : (w.prcAt p).standby = some n)
    (ho : o = .completed ∨ o = .drainStall ∧ (w.prcAt p).config.stall = .cooldown) :
    StandbyStarts p o n s w (clearStandby p (closeEpisode p o w)) (settle (endEpisode p o w)) := by
  have hclosed := episodeClosed (p := p) o h
  have hbooks : (clearStandby p (closeEpisode p o w)).booksOk :=
    (keptAt_clearStandby (p := p)).books ((keptAt_closeEpisode (p := p) o).books h)
  have hseen : (clearStandby p (closeEpisode p o w)).allSeen p := closeEpisode_allSeen o h
  have hlets : letsStandbyStart o (w.prcAt p).config.stall = true := by
    rcases ho with rfl | ⟨rfl, hstall⟩
    · rfl
    · rw [hstall]; rfl
  have hdiscards : (w.prcAt p).discards o = false := by
    rw [PrcPort.discards, hlets]
    exact Bool.and_false _
  have hstate : ((closeEpisode p o w).prcAt p).state = .drain := by
    rw [hclosed.port]
    exact hst
  have hended := episodeEnded hs h (rests_clearStandby hstate nofun) (.refl _)
  have hnotice := hclosed.notice
  rw [hs.episode, hdiscards, hs.stamp] at hnotice
  have hstamp : (clearStandby p (closeEpisode p o w)).stamp = s.stamp := by
    rw [← hs.stamp]
    exact congrArg (fun m : Tmb => BitVec.ofNat 32 m.micros) hclosed.quiet.tmb
  rw [endEpisode_standby hslot ho]
  generalize hm : clearStandby p (closeEpisode p o w) = m at hbooks hseen hended hstamp
  have hern : m.ern = (closeEpisode p o w).ern := by rw [← hm]; rfl
  rw [← hern] at hnotice
  have hopen := opened_openEpisode (p := p) .manual n hbooks hseen
  have hheld := State.raiseEpisode_holds (s := openEpisode p .manual n m) (c := .standbyStart) (p := p) (v := n.val)
  have hnumber : ((openEpisode p .manual n m).prcAt p).episode.number = nextEpisodeNumber m.prc.episodeCounter := by
    rw [hopen.prcAt]
    rfl
  have htmb : (openEpisode p .manual n m).stamp = s.stamp := by
    rw [← hstamp, State.stamp, (quiet_openEpisode p .manual n m).tmb]
    rfl
  rw [hnumber, htmb] at hheld
  have hstart := hopen.standbyStart n.val
  generalize (openEpisode p .manual n m).raiseEpisode .standbyStart p n.val = v at hheld hstart
  have hopened := hstart.episodeOpened hbooks hseen (.settle v)
  have htold {d : NoticeClass} {sc : Option Port} {ep val : Nat} {time : BitVec 32} (hd : d ∉ openingClasses)
      (hl : d ≠ .linkState) (hm : m.ern.Holds d sc ep val time) : (settle v).announces d sc ep val time :=
    (Shows.settle v).tells hl (hstart.earlier hd hm)
  exact {
    ended := hended
    opened := hopened
    finish := htold (by decide) nofun hnotice
    start := by
      rw [hopened.number]
      exact (Shows.settle v).tells nofun hheld
    earlier := fun hd he hl hw => htold hd hl (by rw [hern]; exact hclosed.earlier he hw) }

end

end Sys2Proof.Machine

namespace Sys2Proof.Proofs

open Sys2Proof Sys2Proof.Machine

/-- Settles O47. -/
theorem standbyStartsAfterTheEnd : Obligations.StandbyStartsAfterTheEnd := by
  intro s p n hrun hbooks hok hst hslot q
  refine ⟨fun a b htimer hdue hstall => ?_, fun seq cells d ht hacc hlow => ?_⟩
  · let u := s.modPrc p fun q => { q with drain := .stopped }
    let w := u.raiseEpisode .drainStall p (s.oevAt p).level
    have hexec : exec (.drainExpiry p) s = .next (settle (drainEvent p s)) := if_pos hrun
    have hfires : s.drainDue p = true := by
      rw [State.drainDue, hst, Timer.due_of_running htimer hdue]
      rfl
    have hevent : drainEvent p s = endEpisode p .drainStall w := if_pos hfires
    have hsame : SameEnd p s w := ((SameEnd.refl p s).modPrc _ rfl rfl rfl).raise _ _
    have hbooksw : w.booksOk := ((alike_modPrc s p _ rfl rfl rfl).trans (alike_raiseEpisode u p _ _)).booksOk hbooks
    have hwport : w.prcAt p = { s.prcAt p with drain := .stopped } := State.prcAt_modPrc_self s p _
    have hnumber : (u.prcAt p).episode.number = q.episode.number := by
      rw [show u.prcAt p = _ from hwport]
    have hheld : w.ern.Holds .drainStall (some p) q.episode.number (s.oevAt p).level s.stamp := by
      rw [← hnumber]
      exact State.raiseEpisode_holds (s := u)
    have hstarts := standbyStarts (o := .drainStall) hsame hbooksw (by rw [hwport]; exact hst) (by rw [hwport]; exact hslot)
      (.inr ⟨rfl, by rw [hwport]; exact hstall⟩)
    exact ⟨_, _, by rw [hexec, hevent], hstarts.ended, hstarts.opened, hstarts.earlier (by decide) nofun nofun hheld,
      hstarts.finish, hstarts.start⟩
  · let r := InRecord.occupancy p seq cells d
    let u := (s.withoutRecord r).afterReport p seq cells d
    let w := restartStale p u
    have hsame : SameEnd p (s.afterReport p seq cells d) w :=
      (SameEnd.with_line (s.afterReport p seq cells d) (s.withoutRecord r).flc s.clc).modPrc _ rfl rfl rfl
    have hbooksw : w.booksOk := (alike_restartStale u p).booksOk ((alike_modOev _ p _).booksOk
      (booksOk_line (s.withoutRecord r).flc s.clc hbooks))
    have hwport : w.prcAt p = { s.prcAt p with stale := .startAt s.now q.config.ts } := State.prcAt_modPrc_self u p _
    have hprc := (reportToPrc_drain (s := u) (levelOf s.oev.sets[q.config.levelSet] cells.toNat) ((s.oevAt p).deltaOf d)
      hst).trans (if_pos hlow)
    have hstarts := standbyStarts (o := .completed) hsame hbooksw (by rw [hwport]; exact hst) (by rw [hwport]; exact hslot)
      (.inl rfl)
    exact ⟨_, _, exec_report_accepted ht hacc hprc, hstarts.ended, hstarts.opened, hstarts.finish, hstarts.start⟩

end Sys2Proof.Proofs
end

section
/-! SUPPORT. The teardown, port by port (R17, R107, R154). -/

namespace Sys2Proof.Machine

/-! ### Notices of several ports -/

section
variable {e : Ern} {c d : NoticeClass} {sc sc' : Option Port} {ep ep' v v' : Nat} {time time' : BitVec 32}

/-- A notice of another class or scope leaves a waiting notice as it is. -/
theorem Ern.Holds.raise_elsewhere (h : e.Holds d sc' ep' v' time') (hne : ¬(d = c ∧ sc' = sc)) :
    (e.raise c sc ep v time).Holds d sc' ep' v' time' := by
  have hlevels := (Ern.raise_keeps e c sc ep v time).1
  have hlevel : (e.raise c sc ep v time).level d = e.level d := by rw [Ern.level, hlevels, Ern.level]
  intro hl
  rw [hlevel] at hl ⊢
  obtain ⟨n, hn, hcls, hscope, hrest⟩ := h hl
  refine ⟨n, ?_, hcls, hscope, hrest⟩
  have hkeep : ¬(n.cls = c ∧ n.scope = sc) := fun ⟨hc, hs⟩ => hne ⟨hcls.symm.trans hc, hscope.symm.trans hs⟩
  unfold Ern.raise
  split
  · exact hn
  split
  · exact List.mem_map.mpr ⟨n, hn, if_neg hkeep⟩
  · exact mem_insertNotice.mpr (.inr hn)

end

/-- The ring keeps the last 32 of the summaries (R171). -/
theorem Ern.append_history (e : Ern) (x : Summary) (base : List Summary) (l : List Summary) (hbase : base.length ≤ 32)
    (he : e.history = (base ++ l).drop (base.length + l.length - 32)) :
    (e.append x).history = (base ++ (l ++ [x])).drop (base.length + (l ++ [x]).length - 32) := by
  have hlen : (l ++ [x]).length = l.length + 1 := List.length_append
  have hhistory : e.history.length = base.length + l.length - (base.length + l.length - 32) := by
    rw [he, List.length_drop, List.length_append]
  rw [hlen, ← List.append_assoc, List.drop_append_of_le_length (by rw [List.length_append]; omega)]
  unfold Ern.append
  split
  · next hroom =>
    have hzero : base.length + (l.length + 1) - 32 = 0 := by omega
    have hnone : base.length + l.length - 32 = 0 := by omega
    rw [he, hzero, hnone]
  · next hfull =>
    have hone : base.length + (l.length + 1) - 32 = base.length + l.length - 32 + 1 := by omega
    rw [he, hone, List.drop_drop]

/-! ### One port torn down -/

/-- What the teardown makes of one port (R107). -/
structure PortTorn (p : Port) (o : EpisodeOutcome) (u t : State) : Prop where
  books   : t.booksOk
  others  : OthersKept p u t
  quiet   : Quiet u t
  blocks  : t.oev = u.oev ∧ t.prc.episodeCounter = u.prc.episodeCounter ∧ t.cru.overflow = u.cru.overflow
  state   : (t.prcAt p).state = if (u.prcAt p).state = .disarmed then .disarmed else .idle
  standby : (t.prcAt p).standby = none
  episode : (t.prcAt p).episode = if (u.prcAt p).state.hasEpisode then (u.prcAt p).closed o u.now else (u.prcAt p).episode
  notices : t.ern = if (u.prcAt p).state.hasEpisode then
      (u.ern.append (((u.prcAt p).closed o u.now).summary p o (u.oevAt p).peak)).raise .episodeEnd (some p)
        (u.prcAt p).episode.number (o.code + mark128 ((u.prcAt p).discards o)) u.stamp
    else u.ern
  lists   : t.gpm.free = u.gpm.free ++ u.portGates p ∧
    t.gpm.fifo = u.gpm.fifo ++ (u.portGates p).filter (· ∉ u.gpm.fifo)
  freed   : ∀ g, (t.gpm.gate g).pendingAdd = if g ∈ u.portGates p then 0 else (u.gpm.gate g).pendingAdd

theorem closeEpisode_overflow (p : Port) (o : EpisodeOutcome) (w : State) :
    (closeEpisode p o w).cru.overflow = w.cru.overflow := by
  have hkept (u : State) (n : Nat) (e : Ern) (f : Episode → Episode) : (State.raiseEpisode .episodeEnd p n
      { (u.modCru p fun _ => ⟨0, 0⟩).modEpisode p f with ern := e }).cru.overflow = u.cru.overflow := rfl
  rw [closeEpisode_eq, returned, hkept, returnAll_rest]
  rfl

/-- An outcome of a teardown lets no standby program start. -/
abbrev EpisodeOutcome.tearsDown (o : EpisodeOutcome) : Prop := o = .fault ∨ o = .linkStop ∨ o = .linkReset

section
variable {p : Port} {o : EpisodeOutcome} {u : State}

/-- An end in a teardown leads to IDLE. -/
theorem rests_torn (ho : o.tearsDown) : Rests p .idle (closeEpisode p o u) (endEpisode p o u) := by
  have hafter (c : State) (slot : Option ProgNo) : afterEnd p o slot c = (clearStandby p c).enterPort p .idle := by
    rcases ho with rfl | rfl | rfl <;> rfl
  unfold endEpisode
  rw [hafter]
  exact rests_enterPort _ .idle nofun

theorem portTorn_ends (ho : o.tearsDown) (h : u.booksOk) (hst : (u.prcAt p).state.hasEpisode = true) :
    PortTorn p o u (endEpisode p o u) := by
  have hc := episodeClosed (p := p) o h
  have hrest := rests_torn (p := p) (u := u) ho
  have hbooks := (keptAt_endEpisode (p := p) o h).1.books h
  have hern : (endEpisode p o u).ern = (closeEpisode p o u).ern := by
    unfold endEpisode
    rcases ho with rfl | rfl | rfl <;> rfl
  have hquiet := quiet_endEpisode p o u
  have hclosed := closeEpisode_ern p o u
  have hoverflow := closeEpisode_overflow p o u
  rw [hc.port] at hclosed
  generalize endEpisode p o u = t at *
  generalize closeEpisode p o u = c at *
  have hnot : (u.prcAt p).state ≠ .disarmed := fun hd => by rw [hd] at hst; exact nomatch hst
  have hgpm : t.gpm = c.gpm := by rw [hrest.rest]
  have hoev : t.oev = c.oev := by rw [hrest.rest]
  have hcru : t.cru = c.cru := by rw [hrest.rest]
  exact {
    books := hbooks
    others := hc.others.trans hrest.othersKept
    quiet := hquiet
    blocks := ⟨hoev.trans hc.oev, hrest.counter.trans hc.counter, by rw [hcru, hoverflow]⟩
    state := by rw [hrest.state, if_neg hnot]
    standby := hrest.standby
    episode := by rw [hrest.episode, hc.port, if_pos hst]
    notices := by rw [if_pos hst, hern, hclosed]
    lists := by rw [hgpm]; exact hc.gates.lists
    freed := fun g => by
      rw [hgpm]
      split
      · next hg => rw [hc.gates.freed g hg]
      · next hg => rw [hc.gates.others g hg] }

theorem portGates_of_no_episode (h : u.booksOk) (hst : (u.prcAt p).state.hasEpisode = false) : u.portGates p = [] := by
  refine List.eq_nil_iff_forall_not_mem.mpr fun g hg => ?_
  obtain ⟨i, e, r, he, hp, hr, _⟩ := (State.booksOk_iff.mp h).1.portGates_bound p hg
  have hseen := h.allSeen hst i e he hp
  obtain ⟨hgate, _⟩ := (h.entryOk he).bare (by rw [hseen]; rfl)
  exact nomatch hr.symm.trans hgate

/-- A port without an episode is at most set to IDLE. -/
theorem portTorn_rests {f : PrcPort → PrcPort} (h : u.booksOk) (hok : (u.prcAt p).timersOk)
    (hst : (u.prcAt p).state.hasEpisode = false) (hquiet : Quiet u (u.modPrc p f))
    (hstate : (f (u.prcAt p)).state = if (u.prcAt p).state = .disarmed then .disarmed else .idle)
    (hkeeps : (f (u.prcAt p)).standby = (u.prcAt p).standby ∧ (f (u.prcAt p)).episode = (u.prcAt p).episode ∧
      (f (u.prcAt p)).config = (u.prcAt p).config) : PortTorn p o u (u.modPrc p f) := by
  obtain ⟨hstandby, hepisode, hconfig⟩ := hkeeps
  obtain ⟨_, _, _, _, _, _, _, _, hslot⟩ := hok
  have hnone : (u.prcAt p).standby = none := by
    rw [hst] at hslot
    exact Option.not_isSome_iff_eq_none.mp fun hs => Bool.noConfusion (hslot hs)
  have hgates := portGates_of_no_episode h hst
  exact {
    books := (keptAt_modPrc p u f fun hb i e he hp => by
      rw [hb.allSeen hst i e he hp]
      rfl).books h
    others := othersKept_modPrc f hconfig
    quiet := hquiet
    blocks := ⟨rfl, rfl, rfl⟩
    state := by rw [State.prcAt_modPrc_self, hstate]
    standby := by rw [State.prcAt_modPrc_self, hstandby, hnone]
    episode := by rw [State.prcAt_modPrc_self, hepisode, hst]; rfl
    notices := by rw [hst]; rfl
    lists := by rw [hgates]; exact ⟨(List.append_nil _).symm, (List.append_nil _).symm⟩
    freed := fun g => by rw [hgates]; rfl }

theorem portTorn (ho : o.tearsDown) (h : u.booksOk) (hok : (u.prcAt p).timersOk) :
    PortTorn p o u (teardownPort o u p) := by
  have hsame : u.modPrc p id = u := State.modPrc_same u p id rfl
  unfold teardownPort
  split
  · next hst => exact portTorn_ends ho h (by rw [hst]; rfl)
  · next hst => exact portTorn_ends ho h (by rw [hst]; rfl)
  · next hst => exact portTorn_ends ho h (by rw [hst]; rfl)
  · next hst =>
    exact portTorn_rests h hok (by rw [hst]; rfl) (quiet_enterPort ..) (by rw [PrcPort.enter_idle, hst]; rfl)
      (by rw [PrcPort.enter_idle]; exact ⟨rfl, rfl, rfl⟩)
  · next hst =>
    exact portTorn_rests h hok (by rw [hst]; rfl) (quiet_enterPort ..) (by rw [PrcPort.enter_idle, hst]; rfl)
      (by rw [PrcPort.enter_idle]; exact ⟨rfl, rfl, rfl⟩)
  · next hst =>
    have hrests := portTorn_rests (o := o) (f := id) h hok (by rw [hst]; rfl) (by rw [hsame]; exact .refl u)
      (by rw [id_eq, hst]; rfl) ⟨rfl, rfl, rfl⟩
    rwa [hsame] at hrests
  · next hst =>
    have hrests := portTorn_rests (o := o) (f := id) h hok (by rw [hst]; rfl) (by rw [hsame]; exact .refl u)
      (by rw [id_eq, hst]; rfl) ⟨rfl, rfl, rfl⟩
    rwa [hsame] at hrests

end

end Sys2Proof.Machine
end

section
/-! SUPPORT. The teardown over all ports, and the tables it leaves (R17, R36, R58, R107, R154, R156). -/

namespace Sys2Proof.Machine

/-- The summaries that the ports of a list leave, read in the state before the teardown. -/
def tornSummaries (o : EpisodeOutcome) (s : State) (l : List Port) : List Summary :=
  (l.filter fun p => (s.prcAt p).state.hasEpisode).map fun p =>
    ((s.prcAt p).closed o s.now).summary p o (s.oevAt p).peak

theorem tornSummaries_concat (o : EpisodeOutcome) (s : State) (l : List Port) (p : Port) : tornSummaries o s (l ++ [p]) =
    tornSummaries o s l ++ if (s.prcAt p).state.hasEpisode then
      [((s.prcAt p).closed o s.now).summary p o (s.oevAt p).peak] else [] := by
  unfold tornSummaries
  rw [List.filter_append, List.map_append, List.filter_singleton]
  cases (s.prcAt p).state.hasEpisode <;> rfl

/-- The teardown that began in `s` has torn down the ports `done`. -/
structure TearRun (o : EpisodeOutcome) (s : State) (done : List Port) (u : State) : Prop where
  books    : u.booksOk
  todo     : ∀ p, p ∉ done → u.prcAt p = s.prcAt p
  entries  : ∀ i e, s.rtb.entry? i = some e → e.port ∉ done → u.rtb.entry? i = some e
  quiet    : Quiet s u
  blocks   : u.oev = s.oev ∧ u.prc.episodeCounter = s.prc.episodeCounter ∧ u.cru.overflow = s.cru.overflow
  states   : ∀ p ∈ done, (u.prcAt p).state = (if (s.prcAt p).state = .disarmed then .disarmed else .idle) ∧
    (u.prcAt p).standby = none
  episodes : ∀ p ∈ done, (u.prcAt p).episode =
    if (s.prcAt p).state.hasEpisode then (s.prcAt p).closed o s.now else (s.prcAt p).episode
  history  : s.ern.history.length ≤ 32 → u.ern.history =
    (s.ern.history ++ tornSummaries o s done).drop (s.ern.history.length + (tornSummaries o s done).length - 32)
  written  : u.ern.written = if tornSummaries o s done = [] then s.ern.written
    else sat32 (s.ern.written + (tornSummaries o s done).length)
  told     : ∀ p ∈ done, (s.prcAt p).state.hasEpisode = true → u.ern.Holds .episodeEnd (some p)
    (s.prcAt p).episode.number (o.code + mark128 ((s.prcAt p).discards o)) s.stamp
  earlier  : ∀ {d : NoticeClass} {sc : Option Port} {ep val : Nat} {time : BitVec 32}, d ≠ .episodeEnd →
    s.ern.Holds d sc ep val time → u.ern.Holds d sc ep val time
  lists    : u.gpm.free = s.gpm.free ++ done.flatMap s.portGates ∧
    u.gpm.fifo = s.gpm.fifo ++ (done.flatMap s.portGates).filter (· ∉ s.gpm.fifo)
  freed    : ∀ g ∈ done.flatMap s.portGates, (u.gpm.gate g).pendingAdd = 0

theorem tearRun_start (o : EpisodeOutcome) {s : State} (h : s.booksOk) : TearRun o s [] s where
  books := h
  todo _ _ := rfl
  entries _ _ he _ := he
  quiet := .refl s
  blocks := ⟨rfl, rfl, rfl⟩
  states := nofun
  episodes := nofun
  history hlen := by
    show _ = (s.ern.history ++ []).drop (s.ern.history.length + 0 - 32)
    rw [List.append_nil, Nat.sub_eq_zero_of_le (by omega)]
    rfl
  written := rfl
  told := nofun
  earlier _ h := h
  lists := ⟨(List.append_nil _).symm, (List.append_nil _).symm⟩
  freed := nofun

/-- The gates of different ports are different. -/
theorem State.booksOk.portGates_disjoint {s : State} (h : s.booksOk) {p q : Port} (hpq : p ≠ q) {g : GateNo}
    (hg : g ∈ s.portGates p) : g ∉ s.portGates q := fun hq => by
  have hgates := (State.booksOk_iff.mp h).1
  obtain ⟨i, e, r, he, hp, hr, hrg⟩ := hgates.portGates_bound p hg
  obtain ⟨j, f, k, hf, hfp, hk, hkg⟩ := hgates.portGates_bound q hq
  obtain ⟨hbound, _⟩ := hgates.held i e r he hr
  obtain ⟨hbound', _⟩ := hgates.held j f k hf hk
  rw [hrg] at hbound
  rw [hkg] at hbound'
  have hkeys := Option.some.inj (hbound.symm.trans hbound')
  have hports : e.port = f.port := congrArg Key.port hkeys
  exact hpq (hp.symm.trans (hports.trans hfp))

section
variable {o : EpisodeOutcome} {s u t : State} {done : List Port} {p : Port}

/-- The gates of a port not yet torn down are those it held before. -/
theorem TearRun.portGates (h : TearRun o s done u) (hs : s.booksOk) (hp : p ∉ done) : u.portGates p = s.portGates p := by
  unfold State.portGates
  rw [h.quiet.arrival]
  refine List.filterMap_congr fun i hi => ?_
  obtain ⟨e, he, hep⟩ := ((hs.table.2 p).2 i).mp hi
  have hsame := h.entries i e he (by rw [hep]; exact hp)
  unfold State.gateOf
  rw [he, hsame]

/-- The notices and the ring after one more port. -/
def State.tornErn (s : State) (o : EpisodeOutcome) (p : Port) (e : Ern) : Ern :=
  if (s.prcAt p).state.hasEpisode then
    (e.append (((s.prcAt p).closed o s.now).summary p o (s.oevAt p).peak)).raise .episodeEnd (some p)
      (s.prcAt p).episode.number (o.code + mark128 ((s.prcAt p).discards o)) s.stamp
  else e

theorem TearRun.history_next (h : TearRun o s done u) (p : Port) (hlen : s.ern.history.length ≤ 32) :
    (s.tornErn o p u.ern).history = (s.ern.history ++ tornSummaries o s (done ++ [p])).drop
      (s.ern.history.length + (tornSummaries o s (done ++ [p])).length - 32) := by
  rw [tornSummaries_concat, State.tornErn]
  split
  · obtain ⟨_, hhistory, _⟩ := Ern.raise_keeps
      (u.ern.append (((s.prcAt p).closed o s.now).summary p o (s.oevAt p).peak)) .episodeEnd (some p)
      (s.prcAt p).episode.number (o.code + mark128 ((s.prcAt p).discards o)) s.stamp
    rw [hhistory]
    exact Ern.append_history _ _ _ _ hlen (h.history hlen)
  · rw [List.append_nil]
    exact h.history hlen

theorem TearRun.written_next (h : TearRun o s done u) (p : Port) :
    (s.tornErn o p u.ern).written = if tornSummaries o s (done ++ [p]) = [] then s.ern.written
      else sat32 (s.ern.written + (tornSummaries o s (done ++ [p])).length) := by
  have hold := h.written
  rw [tornSummaries_concat, State.tornErn]
  split
  · obtain ⟨_, _, hwritten, _⟩ := Ern.raise_keeps
      (u.ern.append (((s.prcAt p).closed o s.now).summary p o (s.oevAt p).peak)) .episodeEnd (some p)
      (s.prcAt p).episode.number (o.code + mark128 ((s.prcAt p).discards o)) s.stamp
    rw [hwritten, (Ern.append_last ..).2, hold, if_neg (List.append_ne_nil_of_right_ne_nil _ (List.cons_ne_nil _ _)),
      List.length_append]
    split
    · next hnone => rw [hnone]; rfl
    · rw [sat32_sat32_add, Nat.add_assoc]; rfl
  · rw [List.append_nil]
    exact hold

theorem TearRun.told_next (h : TearRun o s done u) {q : Port} (hq : q ∈ done ++ [p])
    (hst : (s.prcAt q).state.hasEpisode = true) : (s.tornErn o p u.ern).Holds .episodeEnd (some q)
      (s.prcAt q).episode.number (o.code + mark128 ((s.prcAt q).discards o)) s.stamp := by
  by_cases hqp : q = p
  · subst hqp
    rw [State.tornErn, if_pos hst]
    exact Ern.holds_raise
  · have hdone : q ∈ done := (List.mem_append.mp hq).resolve_right fun hmem => hqp (List.mem_singleton.mp hmem)
    rw [State.tornErn]
    split
    · exact ((h.told q hdone hst).append).raise_elsewhere fun hsame => hqp (Option.some.inj hsame.2)
    · exact h.told q hdone hst

/-- The gates of one more port join the free list and the FIFO. -/
theorem TearRun.fifo_next (h : TearRun o s done u) (hs : s.booksOk) (hp : p ∉ done) :
    u.gpm.fifo ++ (s.portGates p).filter (· ∉ u.gpm.fifo) =
      s.gpm.fifo ++ (done.flatMap s.portGates ++ s.portGates p).filter (· ∉ s.gpm.fifo) := by
  have hnew : (s.portGates p).filter (· ∉ u.gpm.fifo) = (s.portGates p).filter (· ∉ s.gpm.fifo) := by
    refine List.filter_congr fun g hg => ?_
    have hout : g ∉ (done.flatMap s.portGates).filter (· ∉ s.gpm.fifo) := fun hin => by
      obtain ⟨hin, _⟩ := List.mem_filter.mp hin
      obtain ⟨q, hq, hgq⟩ := List.mem_flatMap.mp hin
      exact hs.portGates_disjoint (p := p) (q := q) (fun hpq => hp (hpq ▸ hq)) hg hgq
    rw [h.lists.2, decide_eq_decide, List.mem_append, or_iff_left hout]
  rw [hnew, h.lists.2, List.filter_append, List.append_assoc]

theorem TearRun.next (h : TearRun o s done u) (hs : s.booksOk) (hp : p ∉ done) (ht : PortTorn p o u t) :
    TearRun o s (done ++ [p]) t := by
  have hport : u.prcAt p = s.prcAt p := h.todo p hp
  have hgates := h.portGates hs hp
  have hnow : u.now = s.now := by rw [State.now, h.quiet.tmb]; rfl
  have hstamp : u.stamp = s.stamp := by rw [State.stamp, h.quiet.tmb]; rfl
  have hoev : u.oevAt p = s.oevAt p := by rw [State.oevAt, h.blocks.1]; rfl
  have hother (q : Port) (hq : q ∈ done) : t.prcAt q = u.prcAt q := by
    have hqp : q ≠ p := fun hqp => hp (hqp ▸ hq)
    obtain ⟨hprc, _⟩ := ht.others.1 q hqp
    exact hprc
  have hern : t.ern = s.tornErn o p u.ern := by
    have hnotices := ht.notices
    rw [hport, hnow, hoev, hstamp] at hnotices
    exact hnotices
  have hepisode := ht.episode
  have hstate := ht.state
  rw [hport, hnow] at hepisode
  rw [hport] at hstate
  have hflat : (done ++ [p]).flatMap s.portGates = done.flatMap s.portGates ++ s.portGates p := by simp
  obtain ⟨hfree, hfifo⟩ := ht.lists
  rw [hgates] at hfree hfifo
  exact {
    books := ht.books
    todo := fun q hq => by
      rw [List.mem_append, List.mem_singleton, not_or] at hq
      obtain ⟨hprc, _⟩ := ht.others.1 q hq.2
      rw [hprc, h.todo q hq.1]
    entries := fun i e he hep => by
      rw [List.mem_append, List.mem_singleton, not_or] at hep
      exact ht.others.2.1 i e (h.entries i e he hep.1) hep.2
    quiet := h.quiet.trans ht.quiet
    blocks := ⟨ht.blocks.1.trans h.blocks.1, ht.blocks.2.1.trans h.blocks.2.1, ht.blocks.2.2.trans h.blocks.2.2⟩
    states := fun q hq => by
      rcases List.mem_append.mp hq with hq | hq
      · rw [hother q hq]; exact h.states q hq
      · rw [List.mem_singleton.mp hq]; exact ⟨hstate, ht.standby⟩
    episodes := fun q hq => by
      rcases List.mem_append.mp hq with hq | hq
      · rw [hother q hq]; exact h.episodes q hq
      · rw [List.mem_singleton.mp hq]; exact hepisode
    history := fun hlen => by rw [hern]; exact h.history_next p hlen
    written := by rw [hern]; exact h.written_next p
    told := fun q hq hst => by rw [hern]; exact h.told_next hq hst
    earlier := fun hd hheld => by
      have hu := h.earlier hd hheld
      rw [hern, State.tornErn]
      split
      · exact hu.append.raise hd
      · exact hu
    lists := by rw [hflat, hfree, hfifo, h.lists.1, List.append_assoc]; exact ⟨rfl, h.fifo_next hs hp⟩
    freed := fun g hg => by
      rw [hflat] at hg
      rw [ht.freed, hgates]
      split
      · rfl
      · next hnot => exact h.freed g ((List.mem_append.mp hg).resolve_right hnot) }

theorem TearRun.run (h : TearRun o s done u) (hs : s.booksOk) (ho : o.tearsDown) (hok : s.prc.timersOk) {rest : List Port}
    (hnodup : (done ++ rest).Nodup) : TearRun o s (done ++ rest) (rest.foldl (teardownPort o) u) := by
  induction rest generalizing done u with
  | nil => rw [List.append_nil]; exact h
  | cons p rest ih =>
    have hp : p ∉ done := fun hmem => (List.nodup_append.mp hnodup).2.2 p hmem p List.mem_cons_self rfl
    have htimers : (u.prcAt p).timersOk := by rw [h.todo p hp]; exact hok p
    have hnext := h.next hs hp (portTorn ho h.books htimers)
    have hrun := ih hnext (by rw [List.append_assoc]; exact hnodup)
    rw [List.append_assoc] at hrun
    exact hrun

end

/-! ### The tables -/

section
variable {o : EpisodeOutcome} {s u : State}

/-- When every port has been torn down, no entry holds a gate. -/
theorem TearRun.freeHeldGates (h : TearRun o s (List.finRange 48) u) : freeHeldGates u = u := by
  have hbare (i : Slot) (e : Entry) (he : u.rtb.entry? i = some e) : e.gate = none := by
    have hst : (u.prcAt e.port).state.hasEpisode = false := by
      obtain ⟨hstate, _⟩ := h.states e.port (List.mem_finRange _)
      rw [hstate]
      split <;> rfl
    have hseen := h.books.allSeen hst i e he rfl
    exact ((h.books.entryOk he).bare (by rw [hseen]; rfl)).1
  have hone (i : Slot) : freeGateOf i u = u := by
    cases he : u.rtb.entry? i with
    | none => unfold freeGateOf; rw [he]; rfl
    | some e => exact freeGateOf_of_no_gate he (hbare i e he)
  unfold Machine.freeHeldGates
  generalize u.rtb.table.map (·.1) = l
  induction l with
  | nil => rfl
  | cons i l ih => rw [List.foldl_cons, hone, ih]

/-- The teardown is the run over the ports and the clearing of the tables. -/
theorem teardown_eq (ho : o.tearsDown) (h : s.booksOk) (hok : s.prc.timersOk) :
    ∃ u, TearRun o s (List.finRange 48) u ∧ teardown o s = clearTables u := by
  have hrun := (tearRun_start o h).run h ho hok (rest := List.finRange 48) (List.nodup_finRange 48)
  have hfree := hrun.freeHeldGates
  refine ⟨_, hrun, ?_⟩
  unfold teardown
  exact congrArg clearTables hfree

end

/-- Between `s` and `w`, the state that a teardown finds, only the link, the gates on their way and the line have moved,
and notices have been raised. -/
structure SameTables (s w : State) : Prop where
  blocks  : w = { s with flc := w.flc, gpm := w.gpm, ern := w.ern, clc := w.clc }
  history : w.ern.history = s.ern.history ∧ w.ern.written = s.ern.written

theorem SameTables.tornSummaries {s w : State} (h : SameTables s w) (o : EpisodeOutcome) (l : List Port) :
    tornSummaries o w l = tornSummaries o s l := by
  rw [h.blocks]
  rfl

end Sys2Proof.Machine
end

section
/-! SUPPORT. The teardown at the end of its event (R17, R107, R154). -/

namespace Sys2Proof.Machine

/-! ### What follows a teardown within its event -/

/-- Only the link, the gates, the notices and the Control Line differ. -/
def LineOnly (d v : State) : Prop := v = { d with flc := v.flc, gpm := v.gpm, ern := v.ern, clc := v.clc }

theorem LineOnly.trans {d v z : State} (h : LineOnly d v) (k : LineOnly v z) : LineOnly d z := by
  unfold LineOnly at *
  rw [k, h]

/-- What a difference in the line leaves alone. -/
theorem LineOnly.kept {d v : State} (h : LineOnly d v) : v.rtb = d.rtb ∧ v.oev = d.oev ∧ v.cmp = d.cmp ∧ v.pgs = d.pgs ∧
    v.prc = d.prc ∧ v.adu = d.adu ∧ v.cru = d.cru ∧ v.tmb = d.tmb ∧ v.phase = d.phase := by
  unfold LineOnly at h
  rw [h]
  exact ⟨rfl, rfl, rfl, rfl, rfl, rfl, rfl, rfl, rfl⟩

/-- Between `d` and `v` only the link has moved, orders have been taken, and notices other than EPISODE_END have been
raised. -/
structure Later (d v : State) : Prop where
  blocks  : LineOnly d v
  handed  : v.flc.handed = d.flc.handed
  history : v.ern.history = d.ern.history ∧ v.ern.written = d.ern.written
  gates   : ∀ g, (v.gpm.gate g).sameWanted (d.gpm.gate g)
  free    : v.gpm.free = d.gpm.free
  tells   : ∀ {sc : Option Port} {ep val : Nat} {time : BitVec 32}, d.ern.Holds .episodeEnd sc ep val time →
    v.ern.Holds .episodeEnd sc ep val time

namespace Later

variable {d v z : State}

theorem refl (d : State) : Later d d := ⟨rfl, rfl, ⟨rfl, rfl⟩, fun _ => .refl _, rfl, id⟩

theorem trans (h : Later d v) (k : Later v z) : Later d z where
  blocks := h.blocks.trans k.blocks
  handed := k.handed.trans h.handed
  history := ⟨k.history.1.trans h.history.1, k.history.2.trans h.history.2⟩
  gates g := (k.gates g).trans (h.gates g)
  free := k.free.trans h.free
  tells := k.tells ∘ h.tells

theorem link (d : State) (f : Flc) (hf : f.handed = d.flc.handed) : Later d { d with flc := f } :=
  ⟨rfl, hf, ⟨rfl, rfl⟩, fun _ => .refl _, rfl, id⟩

theorem raise (d : State) (c : NoticeClass) (sc : Option Port) (ep val : Nat) (hc : .episodeEnd ≠ c) :
    Later d (d.raise c sc ep val) := by
  obtain ⟨_, hhistory, hwritten, _⟩ := Ern.raise_keeps d.ern c sc ep val d.stamp
  exact ⟨rfl, rfl, ⟨hhistory, hwritten⟩, fun _ => .refl _, rfl, fun h => Ern.Holds.raise h hc⟩

theorem fabPump (d : State) : Later d (fabPump d) := by
  unfold Machine.fabPump
  split_ifs
  · exact .refl d
  · exact ⟨rfl, rfl, ⟨rfl, rfl⟩, d.gpm.takeBatch_sameWanted, d.gpm.takeBatch_free, id⟩
  · exact .link d _ rfl
  · exact (Later.link d { d.flc with rx := .hunting, idle := .stopped, link := .down } rfl).trans
      (.raise _ .linkState none 0 0 nofun)
  · exact .refl d

end Later

/-! ### The statement of a teardown -/

section
variable {o : EpisodeOutcome} {s w u v t : State}

/-- The summaries of the statement are those of the closed episodes. -/
theorem teardownSummaries_eq (ht : ∀ p, (s.prcAt p).state.hasEpisode = true →
    (t.prcAt p).episode = (s.prcAt p).closed o s.now) :
    teardownSummaries o s t = tornSummaries o s (List.finRange 48) := by
  unfold teardownSummaries Machine.tornSummaries
  refine List.map_congr_left fun p hp => ?_
  rw [ht p (List.mem_filter.mp hp).2]

theorem PrcPort.discards_torn (ho : o.tearsDown) (q : PrcPort) : q.discards o = q.standby.isSome := by
  unfold PrcPort.discards
  rcases ho with rfl | rfl | rfl <;> exact Bool.and_true _

/-- After a teardown no gate is BOUND, and each stands in the free list. -/
theorem teardown_gates (o : EpisodeOutcome) (h : w.booksOk) (g : GateNo) : ((teardown o w).gpm.gate g).bound = none ∧
    ((teardown o w).gpm.gate g).mode = .free ∧ g ∈ (teardown o w).gpm.free := by
  have hbooks := teardown_booksOk o h
  have hbound : ((teardown o w).gpm.gate g).bound = none := by
    by_contra hg
    obtain ⟨k, hk⟩ := Option.ne_none_iff_exists'.mp hg
    obtain ⟨i, e, _, he, _⟩ := hbooks.bound g k hk
    exact nomatch he
  obtain ⟨hmode, _⟩ := hbooks.unbound g hbound
  exact ⟨hbound, hmode, (hbooks.lists.2.2 g).mpr hbound⟩

/-- The settings and counters that the clearing of the tables leaves alone. -/
theorem clearTables_keeps (u : State) : (clearTables u).rtb.ctr = u.rtb.ctr ∧ (clearTables u).rtb.ageLimit = u.rtb.ageLimit ∧
    (clearTables u).cmp = u.cmp ∧ (clearTables u).pgs = u.pgs ∧ (clearTables u).prc = u.prc ∧
    (clearTables u).cru.overflow = u.cru.overflow ∧ (clearTables u).tmb = u.tmb ∧ (clearTables u).phase = u.phase :=
  ⟨rfl, rfl, rfl, rfl, rfl, rfl, rfl, rfl⟩

theorem TearRun.kept (h : TearRun o w (List.finRange 48) u) :
    (clearTables u).rtb.ctr = w.rtb.ctr ∧ (clearTables u).rtb.ageLimit = w.rtb.ageLimit ∧
    (clearTables u).oev.sets = w.oev.sets ∧ (clearTables u).cmp = w.cmp ∧ (clearTables u).pgs = w.pgs ∧
    (clearTables u).prc.episodeCounter = w.prc.episodeCounter ∧ (clearTables u).cru.overflow = w.cru.overflow ∧
    (clearTables u).tmb = w.tmb ∧ (clearTables u).phase = w.phase := by
  obtain ⟨hctr, hage, hcmp, hpgs, hprc, hoverflow, htmb, hphase⟩ := clearTables_keeps u
  obtain ⟨_, hcounter, hflow⟩ := h.blocks
  have hq := h.quiet
  rw [hctr, hage, clearTables_sets, hcmp, hpgs, hprc, hoverflow, htmb, hphase]
  exact ⟨hq.rtbCtr, hq.ageLimit, hq.sets, hq.cmp, hq.pgs, hcounter, hflow, hq.tmb, hq.phase⟩

/-- The end of an event whose teardown has been followed by steps of the link only. -/
theorem tornDown (ho : o.tearsDown) (hs : SameTables s w) (h : w.booksOk) (hok : w.prc.timersOk)
    (hv : Later (teardown o w) v) (ht : Ends v t) : TornDown o s t := by
  obtain ⟨u, hrun, hd⟩ := teardown_eq ho h hok
  have hgates := teardown_gates o h
  rw [hd] at hv hgates
  have hshow := ht.shows
  have hw := hs.blocks
  obtain ⟨hrtb, hoev, hcmp, hpgs, hprcs, hadu, hcru, htmb, hphase⟩ :=
    LineOnly.kept (hv.blocks.trans (show LineOnly v t from hshow.blocks))
  have hprc (p : Port) : t.prcAt p = u.prcAt p := by rw [State.prcAt, hprcs]; rfl
  have hwprc (p : Port) : w.prcAt p = s.prcAt p := by rw [hw]; rfl
  have hnow : w.now = s.now := by rw [hw]; rfl
  have hstamp : w.stamp = s.stamp := by rw [hw]; rfl
  have hclosed (p : Port) (hst : (s.prcAt p).state.hasEpisode = true) : (t.prcAt p).episode = (s.prcAt p).closed o s.now := by
    rw [hprc, hrun.episodes p (List.mem_finRange p), hwprc, if_pos hst, hnow]
  have hsummaries : teardownSummaries o s t = tornSummaries o w (List.finRange 48) :=
    (teardownSummaries_eq hclosed).trans (hs.tornSummaries o _).symm
  have hlane := Later.fabPump v
  have hline : t.gpm = (fabPump v).gpm ∧ t.flc = (fabPump v).flc := by
    obtain ⟨_, _, hflc, _, _, _, _, _, _, _, hgpm, _⟩ := ctlPump_frame (fabPump v)
    rw [ht.lane]
    exact ⟨hgpm, hflc⟩
  exact {
    ports := fun p => by
      obtain ⟨hstate, hstandby⟩ := hrun.states p (List.mem_finRange p)
      have hconfig := hrun.quiet.config p
      rw [hwprc] at hstate hconfig
      rw [hprc]
      exact ⟨hstate, hstandby, hconfig⟩
    episodes := fun p => by
      have hepisode := hrun.episodes p (List.mem_finRange p)
      rw [hwprc, hnow, PrcPort.closed, PrcPort.discards_torn ho] at hepisode
      rw [hprc]
      exact hepisode
    history := fun hlen => by
      have hhistory := hrun.history (by rw [hs.history.1]; exact hlen)
      rw [hs.history.1] at hhistory
      rw [hsummaries, hshow.history.1, hv.history.1]
      exact hhistory
    written := by
      have hwritten := hrun.written
      rw [hs.history.2] at hwritten
      rw [hsummaries, hshow.history.2, hv.history.2]
      exact hwritten
    notices := fun p hst => by
      have htold := hrun.told p (List.mem_finRange p) (by rw [hwprc]; exact hst)
      rw [hwprc, hstamp, PrcPort.discards_torn ho] at htold
      exact hshow.tells nofun (hv.tells htold)
    tables := by
      refine ⟨by rw [hrtb]; rfl, fun p => by rw [hrtb]; exact clearTables_arrival u p, fun p => ?_, fun p => ?_, ?_⟩
      · rw [State.aduAt, hadu]; exact clearTables_aduAt u p
      · rw [State.cruAt, hcru]; exact clearTables_cruAt u p
      · rw [hline.2, hlane.handed, hv.handed]; rfl
    occupancy := fun p => by
      have hsame : u.oevAt p = s.oevAt p := by rw [State.oevAt, hrun.blocks.1, hw]; rfl
      have hcleared : t.oevAt p = (clearTables u).oevAt p := by rw [State.oevAt, hoev]; rfl
      rw [hcleared, clearTables_oevAt, hsame]
      rfl
    gates := by
      rw [hline.1]
      refine ⟨fun g => ?_, fun g => ?_⟩
      · obtain ⟨hbound, hmode, _⟩ := hgates g
        obtain ⟨_, hbound', hmode', _⟩ := (hlane.gates g).trans (hv.gates g)
        exact ⟨hbound'.trans hbound, hmode'.trans hmode⟩
      · obtain ⟨_, _, hfree⟩ := hgates g
        rw [hlane.free, hv.free]
        exact hfree
    kept := by
      have hkept := hrun.kept
      rw [hrtb, hoev, hcmp, hpgs, hprcs, hcru, htmb, hphase]
      rw [hw] at hkept
      exact hkept }

end

end Sys2Proof.Machine
end

section
/-! SUPPORT. The FREE orders of a teardown (R15, R148, R154), and the link requests that run one (R10, R11). -/

namespace Sys2Proof.Machine

section
variable {o : EpisodeOutcome} {s w u x t : State}

/-- The FREE orders of a teardown at the end of its event: `x` is the state that the fabric transmitter finds. -/
theorem TearRun.freeOrdersMade (h : TearRun o w (List.finRange 48) u) (hw : w.gpm = s.gpm ∧ w.rtb = s.rtb)
    (hx : x.gpm = u.gpm ∧ x.flc.tx = s.flc.tx ∧ x.flc.link ≠ .down) (hs : s.flc.tx = none → s.gpm.fifo = [])
    (ht : x.laneTakes x.gpm t) : FreeOrdersMade s t := by
  obtain ⟨hwgpm, hwrtb⟩ := hw
  obtain ⟨hgpm, htx, hlink⟩ := hx
  have hheld : (List.finRange 48).flatMap w.portGates = s.heldGates := by
    unfold State.heldGates State.portGates State.gateOf
    rw [hwrtb]
  obtain ⟨hfree, hfifo⟩ := h.lists
  have hfreed := h.freed
  rw [hheld] at hfree hfifo hfreed
  rw [hwgpm, ← hgpm] at hfree hfifo
  rw [← hgpm] at hfreed
  generalize x.gpm = m at *
  unfold State.laneTakes at ht
  rw [htx] at ht
  have hall : t.gpm.free = m.free := by
    split at ht
    · rw [ht.1, Gpm.takeBatch_free]
    · rw [ht]
  refine ⟨hall.trans hfree, ?_, fun hidle hsome => ?_⟩
  · rw [← hfifo]
    split
    · next hidle =>
      split at ht
      · rw [ht.1]; rfl
      · next hno =>
        have hnone : m.fifo = [] := by_contra fun hne => hno ⟨hidle, hlink, hne⟩
        rw [ht, hnone]
        rfl
    · next hbusy =>
      rw [if_neg fun hc => hbusy hc.1] at ht
      rw [ht]
      rfl
  · have hempty := hs hidle
    have hfifo' : m.fifo = s.heldGates := by simpa [hempty] using hfifo
    have hne : m.fifo ≠ [] := by
      rw [hfifo']
      simpa [hempty] using hsome
    rw [if_pos ⟨hidle, hlink, hne⟩] at ht
    obtain ⟨htaken, hframe⟩ := ht
    refine ⟨x.flc.outSeq, ?_⟩
    rw [hframe, ← hfifo]
    refine congrArg (fun l => some (fabricFrame x.flc.outSeq l)) ?_
    unfold Gpm.orders
    rw [List.map_map]
    refine List.map_congr_left fun g hg => ?_
    have hin : g ∈ s.heldGates := by
      rw [← hfifo']
      exact List.mem_of_mem_take hg
    rw [htaken, Gpm.takeBatch_gate_of_no_add (hfreed g hin)]
    rfl

end

end Sys2Proof.Machine
end

section
/-! SUPPORT. The link fault (R5 to R7): what the transmitters leave of the link, and the event that declares the fault. -/

namespace Sys2Proof.Machine

/-! ### The link beside the fabric transmitter -/

/-- The transmitter has moved: its frame, its sequence, its interval and its counters. -/
def Flc.Pumped (f g : Flc) : Prop := g = { f with
  tx := g.tx, outSeq := g.outSeq, idle := g.idle
  ctr := { f.ctr with framesSent := g.ctr.framesSent, ordersSent := g.ctr.ordersSent } }

theorem Flc.Pumped.refl (f : Flc) : f.Pumped f := rfl

theorem fabPump_pumped {v : State} (h : v.flc.link ≠ .stopping) : v.flc.Pumped (fabPump v).flc := by
  unfold fabPump
  split_ifs <;> exact rfl

theorem settle_pumped {v : State} (h : v.flc.link ≠ .stopping) : v.flc.Pumped (settle v).flc := by
  have hflc : (settle v).flc = (fabPump v).flc := (ctlPump_frame (fabPump v)).2.2.1
  rw [hflc]
  exact fabPump_pumped h

theorem ctlPump_fault (v : State) : (ctlPump v).ern.fault = v.ern.fault := by
  unfold ctlPump
  split
  · rfl
  · split
    · rfl
    · split <;> rfl

theorem settle_fault {v : State} (h : v.flc.link ≠ .stopping) : (settle v).ern.fault = v.ern.fault := by
  unfold settle
  rw [ctlPump_fault, fabPump_ern h]

/-- Away from STOPPING, a waiting LINK_STATE notice too is told at the end of the event. -/
theorem Ern.Holds.settle_away {v : State} {d : NoticeClass} {sc : Option Port} {ep val : Nat} {time : BitVec 32}
    (h : v.ern.Holds d sc ep val time) (hlink : v.flc.link ≠ .stopping) :
    (Machine.settle v).announces d sc ep val time := by
  have hern := fabPump_ern hlink
  have hlevel : (Machine.settle v).ern.level d = (Machine.fabPump v).ern.level d := by
    rw [Ern.level, Machine.settle, ctlPump_levels, Ern.level]
  intro hl
  rw [hlevel, hern] at hl
  obtain ⟨n, hn, hcls, hsc, hlev, hrest⟩ := h hl
  rw [← hern] at hn hlev
  rw [hlevel]
  obtain ⟨hep, hval, htime⟩ := hrest
  exact ⟨n, hcls, hsc, hlev, hep, hval, htime, ctlPump_keeps_notice (Machine.fabPump v) hn⟩

theorem Ern.offer_fault {e f : Ern} (h : e.fault = f.fault) (k : FaultKind) (seq : BitVec 16) (index : Nat) (time : BitVec 32) :
    (e.offer k seq index time).fault = (f.offer k seq index time).fault := by
  unfold Ern.offer
  rw [h]
  split <;> rfl

theorem Ern.offer_keeps (e : Ern) (k : FaultKind) (seq : BitVec 16) (index : Nat) (time : BitVec 32) :
    (e.offer k seq index time).history = e.history ∧ (e.offer k seq index time).written = e.written := by
  unfold Ern.offer
  split <;> exact ⟨rfl, rfl⟩

/-! ### The fault -/

/-- The state that the teardown of a link fault finds (R7). -/
def State.faulted (z : State) : State :=
  let n := min 255 (z.flc.errCount + 1)
  { z with
    flc := { z.flc with
      link := .faulted, errCount := n
      ctr := { z.flc.ctr with linkFaults := sat32 (z.flc.ctr.linkFaults + 1) } }
    ern := (z.ern.raise .linkState none 0 3 z.stamp).raise .linkFault none 0 n z.stamp }

theorem raiseErrors_at_limit {z : State} (h : z.flc.faultLimit ≤ min 255 (z.flc.errCount + 1)) :
    raiseErrors z = teardown .fault z.faulted := by
  unfold raiseErrors
  exact if_pos h

theorem teardown_flc {w : State} (o : EpisodeOutcome) (ho : o.tearsDown) (h : w.booksOk) (hok : w.prc.timersOk) :
    (teardown o w).flc = { w.flc with handed := [] } ∧ (teardown o w).ern.fault = w.ern.fault ∧
    (teardown o w).clc = w.clc ∧ (teardown o w).stamp = w.stamp := by
  obtain ⟨u, hrun, hd⟩ := teardown_eq ho h hok
  have hcleared (x : State) : (clearTables x).flc = { x.flc with handed := [] } ∧ (clearTables x).ern = x.ern ∧
      (clearTables x).clc = x.clc ∧ (clearTables x).tmb = x.tmb := ⟨rfl, rfl, rfl, rfl⟩
  obtain ⟨hflc, hern, hclc, htmb⟩ := hcleared u
  have hq := hrun.quiet
  rw [hd, State.stamp, hflc, hern, hclc, htmb, hq.flc, hq.fault, hq.clc, hq.tmb]
  exact ⟨rfl, rfl, rfl, rfl⟩

/-- What a teardown leaves of a notice raised before it. -/
theorem teardown_holds {w : State} {o : EpisodeOutcome} (ho : o.tearsDown) (h : w.booksOk) (hok : w.prc.timersOk)
    {d : NoticeClass} {sc : Option Port} {ep val : Nat} {time : BitVec 32} (hd : d ≠ .episodeEnd)
    (hw : w.ern.Holds d sc ep val time) : (teardown o w).ern.Holds d sc ep val time := by
  obtain ⟨u, hrun, heq⟩ := teardown_eq ho h hok
  have hern : (teardown o w).ern = u.ern := by rw [heq]; rfl
  rw [hern]
  exact hrun.earlier hd hw

/-- What a link fault has left at the end of its event: `f` is the link before the transmitters. -/
structure Faulted (s z t : State) (f : Flc) : Prop where
  torn   : TornDown .fault s t
  link   : f.Pumped t.flc
  fault  : t.ern.fault = z.ern.fault
  state  : t.announces .linkState none 0 3 s.stamp
  notice : t.announces .linkFault none 0 (min 255 (z.flc.errCount + 1)) s.stamp
  orders : z.gpm = s.gpm → z.flc.tx = s.flc.tx → (s.flc.tx = none → s.gpm.fifo = []) → FreeOrdersMade s t

/-- The event of a link fault, which may go on to count the frame. -/
theorem faulted_settle {s z : State} {f : Flc} (hz : SameTables s z) (h : z.booksOk) (hok : z.prc.timersOk)
    (hf : f = { z.faulted.flc with handed := [], ctr := f.ctr }) :
    Faulted s z (settle { teardown .fault z.faulted with flc := f }) f := by
  have ho : EpisodeOutcome.tearsDown .fault := .inl rfl
  have hbooks : z.faulted.booksOk := ((alike_counts z rfl ⟨rfl, rfl, rfl⟩ rfl rfl rfl : Alike z z.faulted)).booksOk h
  have hstamp : z.stamp = s.stamp := by rw [hz.blocks]; rfl
  have hw : SameTables s z.faulted := by
    obtain ⟨_, h1, h2, _⟩ := Ern.raise_keeps z.ern .linkState none 0 3 z.stamp
    obtain ⟨_, h3, h4, _⟩ := Ern.raise_keeps (z.ern.raise .linkState none 0 3 z.stamp) .linkFault none 0
      (min 255 (z.flc.errCount + 1)) z.stamp
    refine ⟨?_, (h3.trans h1).trans hz.history.1, (h4.trans h2).trans hz.history.2⟩
    have := hz.blocks
    rw [this]
    rfl
  obtain ⟨hflc, hfault, _⟩ := teardown_flc .fault ho hbooks hok
  have hlink : f.link = .faulted := by rw [hf]; rfl
  have hhanded : f.handed = (teardown .fault z.faulted).flc.handed := by rw [hf, hflc]
  have hlater := Later.link (teardown .fault z.faulted) f hhanded
  have htorn := tornDown ho hw hbooks hok hlater (.settle _)
  have haway : f.link ≠ .stopping := by rw [hlink]; nofun
  have hstate : z.faulted.ern.Holds .linkState none 0 3 s.stamp := by
    rw [← hstamp]
    exact Ern.Holds.raise Ern.holds_raise nofun
  have hnotice : z.faulted.ern.Holds .linkFault none 0 (min 255 (z.flc.errCount + 1)) s.stamp := by
    rw [← hstamp]
    exact Ern.holds_raise
  have hstate' := teardown_holds (d := .linkState) ho hbooks hok nofun hstate
  have hnotice' := teardown_holds (d := .linkFault) ho hbooks hok nofun hnotice
  have hkept : z.faulted.ern.fault = z.ern.fault := by
    obtain ⟨_, _, _, _, _, h1⟩ := Ern.raise_keeps z.ern .linkState none 0 3 z.stamp
    obtain ⟨_, _, _, _, _, h2⟩ := Ern.raise_keeps (z.ern.raise .linkState none 0 3 z.stamp) .linkFault none 0
      (min 255 (z.flc.errCount + 1)) z.stamp
    exact h2.trans h1
  obtain ⟨u, hrun, hd⟩ := teardown_eq ho hbooks hok
  have hgpm : (teardown .fault z.faulted).gpm = u.gpm := by rw [hd]; rfl
  generalize teardown .fault z.faulted = d at *
  exact {
    torn := htorn
    link := settle_pumped (v := { d with flc := f }) haway
    fault := (settle_fault (v := { d with flc := f }) haway).trans (hfault.trans hkept)
    state := Ern.Holds.settle_away (v := { d with flc := f }) hstate' haway
    notice := Ern.Holds.settle_away (v := { d with flc := f }) hnotice' haway
    orders := fun hgates htx hempty => by
      have hrtb : z.rtb = s.rtb := by rw [hz.blocks]
      have hidle : f.tx = s.flc.tx := by rw [hf]; exact htx
      exact hrun.freeOrdersMade (s := s) (x := { d with flc := f }) ⟨hgates, hrtb⟩
        ⟨hgpm, hidle, by rw [hlink]; nofun⟩ hempty (laneTakes_settle ⟨rfl, rfl, rfl⟩) }

end Sys2Proof.Machine
end

section
/-! SUPPORT. The frame that declares the link fault (R5 to R7). -/

namespace Sys2Proof.Machine

/-- A frame has been counted and offered in an event that began in `s`: the state that the link fault finds. -/
structure Counted (s z : State) (k : FaultKind) (seq : BitVec 16) : Prop where
  blocks : z = { settle s with flc := z.flc, ern := z.ern }
  ern    : z.ern = (settle s).ern.offer k seq 32 s.stamp
  tx     : z.flc.tx = (settle s).flc.tx

/-- The link before a frame event in UP: the frame, the interval and the counters of the transmitter aside, it is that
of the state that the event found. -/
theorem settle_link_up {s : State} (hup : s.flc.link = .up) : s.flc.Pumped (settle s).flc :=
  settle_pumped (by rw [hup]; nofun)

theorem Flc.Pumped.receiver {f g : Flc} (h : f.Pumped g) : g.link = f.link ∧ g.expected = f.expected ∧
    g.errCount = f.errCount ∧ g.faultLimit = f.faultLimit ∧ g.rx = f.rx ∧ g.ctr.linkFaults = f.ctr.linkFaults ∧
    g.ctr.malformed = f.ctr.malformed ∧ g.ctr.wellFormed = f.ctr.wellFormed ∧ g.ctr.lost = f.ctr.lost ∧
    g.ctr.discarded = f.ctr.discarded := by
  unfold Flc.Pumped at h
  rw [h]
  exact ⟨rfl, rfl, rfl, rfl, rfl, rfl, rfl, rfl, rfl, rfl⟩

section
variable {s z : State} {k : FaultKind} {seq : BitVec 16}

theorem Counted.sameTables (h : Counted s z k seq) : SameTables s z := by
  obtain ⟨hhistory, hwritten⟩ := (Shows.settle s).history
  obtain ⟨hoffered, hoffered'⟩ := (settle s).ern.offer_keeps k seq 32 s.stamp
  have hblocks := (settle_rest s)
  refine ⟨?_, ?_, ?_⟩
  · rw [h.blocks, hblocks]
  · rw [h.ern, hoffered, hhistory]
  · rw [h.ern, hoffered', hwritten]

theorem Counted.booksOk (h : Counted s z k seq) (hbooks : s.booksOk) : z.booksOk := by
  have hsettled := (aside_settle s).alike.booksOk hbooks
  have halike : Alike (settle s) z := by
    rw [h.blocks]
    exact alike_counts (settle s) rfl ⟨rfl, rfl, rfl⟩ rfl rfl rfl
  exact halike.booksOk hsettled

theorem Counted.timersOk (h : Counted s z k seq) (hok : s.prc.timersOk) : z.prc.timersOk := by
  have hprc : z.prc = s.prc := by rw [h.sameTables.blocks]
  rw [hprc]
  exact hok

theorem Counted.faulted (h : Counted s z k seq) (hbooks : s.booksOk) (hok : s.prc.timersOk) {f : Flc}
    (hf : f = { z.faulted.flc with handed := [], ctr := f.ctr }) :
    Faulted s z (settle { teardown .fault z.faulted with flc := f }) f :=
  faulted_settle h.sameTables (h.booksOk hbooks) (h.timersOk hok) hf

theorem Counted.orders (h : Counted s z k seq) {t : State} {f : Flc} (ht : Faulted s z t f) (hup : s.flc.link = .up)
    (hs : s.settled) : FreeOrdersMade s t := by
  have hsettle := settle_eq_of_settled hs
  have htx := h.tx
  rw [hsettle] at htx
  refine ht.orders ?_ htx fun hidle => ?_
  · rw [h.blocks, hsettle]
  · obtain ⟨hfifo, _⟩ := hs.1 hidle (by rw [hup]; nofun)
    exact hfifo

theorem Counted.fault (h : Counted s z k seq) {t : State} {f : Flc} (ht : Faulted s z t f) (hup : s.flc.link = .up) :
    t.ern.fault = (s.ern.offer k seq 32 s.stamp).fault := by
  rw [ht.fault, h.ern]
  exact Ern.offer_fault (settle_fault (by rw [hup]; nofun)) k seq 32 s.stamp

theorem settle_stamp (s : State) : (settle s).stamp = s.stamp := by
  unfold State.stamp
  rw [settle_tmb]

theorem counted_malformed (s : State) (seq : Option (BitVec 16)) (rx : FabRx) :
    Counted s (countMalformed seq ((settle s).withRx rx)) .malformed (seq.getD (settle s).flc.expected) where
  blocks := rfl
  ern := by
    rw [← settle_stamp]
    rfl
  tx := rfl

theorem counted_gap (s : State) (seq : BitVec 16) (rx : FabRx) :
    Counted s (countGap seq ((settle s).withRx rx)) .sequence seq where
  blocks := rfl
  ern := by
    rw [← settle_stamp]
    rfl
  tx := rfl

/-- The event of the link fault leaves the link's own part of the state. -/
theorem raiseErrors_faulted {z : State} (hbooks : z.booksOk) (hok : z.prc.timersOk)
    (h : z.flc.faultLimit ≤ min 255 (z.flc.errCount + 1)) : raiseErrors z =
      { teardown .fault z.faulted with flc := { z.faulted.flc with handed := [] } } := by
  have hfaulted : z.faulted.booksOk := (alike_counts z rfl ⟨rfl, rfl, rfl⟩ rfl rfl rfl : Alike z z.faulted).booksOk hbooks
  obtain ⟨hflc, _⟩ := teardown_flc .fault (.inl rfl) hfaulted hok
  rw [raiseErrors_at_limit h, ← hflc]

/-- The link with one more frame discarded. -/
def Flc.discarding (f : Flc) : Flc := { f with ctr := { f.ctr with discarded := sat32 (f.ctr.discarded + 1) } }

theorem countDiscarded_link (d : State) (f : Flc) : countDiscarded { d with flc := f } = { d with flc := f.discarding } :=
  rfl

/-- A frame out of sequence at the fault limit is discarded too (R5, R7). -/
theorem takeOutOfSequence_at_limit {u : State} (seq : BitVec 16) (records : List (List Byte))
    (h : (raiseErrors (countGap seq u)).flc.link = .faulted) :
    takeOutOfSequence seq records u = countDiscarded (raiseErrors (countGap seq u)) :=
  if_neg (by rw [show (raiseErrors ((countTaken seq (u.modLink fun c =>
    { c with lost := sat32 (c.lost + (seq - u.flc.expected).toNat) })).offer .sequence seq 32)).flc.link = .faulted from h]; nofun)

end

end Sys2Proof.Machine

namespace Sys2Proof.Proofs

open Sys2Proof Sys2Proof.Machine

/-- Settles O27. -/
theorem linkFaultTearsDown : Obligations.LinkFaultTearsDown := by
  intro s hrun hbooks hok hrx hup hlimit n
  have hdown : s.flc.link ≠ .down := by rw [hup]; nofun
  have haway : s.settled ∨ s.flc.link ≠ .stopping := .inr (by rw [hup]; nofun)
  obtain ⟨hlink, hexpected, hcount, hlim, _, hfaults, hmalformed, hwell, hlost, hdiscarded⟩ := (settle_link_up hup).receiver
  have hfull : (settle s).flc.faultLimit ≤ min 255 ((settle s).flc.errCount + 1) := by
    rw [hlim, hcount]
    exact hlimit
  refine ⟨fun syms seq rx h => ?_, fun seq records hseq hlen h16 => ?_⟩
  · have hz := counted_malformed s seq rx
    have hevent := (takeFrameEvent_malformed_up (s := (settle s).withRx rx) (hlink.trans hup) seq).trans
      (raiseErrors_faulted (hz.booksOk hbooks) (hz.timersOk hok) hfull)
    have hexec := exec_malformed hrun hrx hdown haway h
    rw [hevent] at hexec
    have ht := hz.faulted hbooks hok (f := { (countMalformed seq ((settle s).withRx rx)).faulted.flc with handed := [] }) rfl
    have hfault := hz.fault ht hup
    obtain ⟨hlink', hexpected', hcount', _, hrx', hfaults', hmalformed', _⟩ := ht.link.receiver
    have hnotice := ht.notice
    rw [show (countMalformed seq ((settle s).withRx rx)).flc.errCount = s.flc.errCount from hcount] at hnotice
    rw [hexpected] at hfault
    refine ⟨_, hexec, ht.torn, hz.orders ht hup, hlink', hcount'.trans ?_, hrx', hfaults'.trans ?_, hmalformed'.trans ?_,
      hexpected'.trans hexpected, hfault, ht.state, hnotice⟩
    · exact congrArg (fun m => min 255 (m + 1)) hcount
    · exact congrArg (fun m => sat32 (m + 1)) hfaults
    · exact congrArg (fun m => sat32 (m + 1)) hmalformed
  · have hz := counted_gap s seq .hunting
    have hraised := raiseErrors_faulted (hz.booksOk hbooks) (hz.timersOk hok) hfull
    have hevent := (takeFrameEvent_outOfSequence (s := (settle s).withRx .hunting) (hlink.trans hup)
      (by rw [show ((settle s).withRx .hunting).flc.expected = s.flc.expected from hexpected]; exact hseq) records).trans
      (takeOutOfSequence_at_limit seq records (by rw [hraised]; rfl))
    have hexec := exec_wellFormed (seq := seq) hrun hrx hdown haway hlen h16
    rw [hevent, hraised, countDiscarded_link] at hexec
    have ht := hz.faulted hbooks hok (f := Flc.discarding
      { (countGap seq ((settle s).withRx .hunting)).faulted.flc with handed := [] }) rfl
    obtain ⟨hlink', hexpected', hcount', _, hrx', hfaults', _, hwell', hlost', hdiscarded'⟩ := ht.link.receiver
    have hnotice := ht.notice
    rw [show (countGap seq ((settle s).withRx .hunting)).flc.errCount = s.flc.errCount from hcount] at hnotice
    refine ⟨_, hexec, ht.torn, hz.orders ht hup, hlink', hcount'.trans ?_, hrx', hfaults'.trans ?_, hwell'.trans ?_,
      hlost'.trans ?_, hdiscarded'.trans ?_, hexpected', hz.fault ht hup, ht.state, hnotice⟩
    · exact congrArg (fun m => min 255 (m + 1)) hcount
    · exact congrArg (fun m => sat32 (m + 1)) hfaults
    · exact congrArg (fun m => sat32 (m + 1)) hwell
    · show sat32 ((settle s).flc.ctr.lost + (seq - (settle s).flc.expected).toNat) = _
      rw [hlost, hexpected]
    · exact congrArg (fun m => sat32 (m + 1)) hdiscarded

end Sys2Proof.Proofs
end

section
/-! SUPPORT. The link requests by link state (R9 to R11, R16). -/

namespace Sys2Proof.Machine

/-! ### The link requests -/

/-- LINK_START in DOWN, before the frame that it begins at once (R9, R16). -/
def State.started (s : State) : State :=
  (clearSequences { s with flc := { s.flc with idle := .runOut } }).setLink .syncing

/-- LINK_RESET, before what a free transmitter begins (R10). -/
def State.restarted (s : State) : State := (clearSequences s).setLink .syncing

section
variable {s : State}

theorem linkStart_down (h : s.flc.link = .down) (b : List Byte) : linkStart b s = (s.started, [0, 1]) := if_pos h

theorem linkStart_refused (h : s.flc.link ≠ .down) (b : List Byte) :
    linkStart b s = (s, [12, BitVec.ofNat 8 s.flc.link.code]) := if_neg h

theorem linkReset_faulted (h : s.flc.link = .faulted) (b : List Byte) : linkReset b s = (s.restarted, [0, 1]) := by
  unfold linkReset
  rw [h]
  rfl

theorem linkReset_refused (h : s.flc.link = .down ∨ s.flc.link = .stopping) (b : List Byte) :
    linkReset b s = (s, [12, BitVec.ofNat 8 s.flc.link.code]) := by
  unfold linkReset
  rcases h with h | h <;> simp only [h] <;> unfold linkReply <;> rw [h] <;> rfl

theorem linkReset_tearsDown (h : s.flc.link = .up ∨ s.flc.link = .syncing) (b : List Byte) :
    linkReset b s = ((teardown .linkReset s).restarted, [0, 1]) := by
  unfold linkReset
  rcases h with h | h <;> rw [h] <;> rfl

/-- The reply OK of LINK_STOP, with the link state code that holds. -/
theorem linkReply_ok (u : State) : linkReply .ok u = (u, [0, BitVec.ofNat 8 u.flc.link.code]) := rfl

theorem linkStop_same (h : s.flc.link = .down ∨ s.flc.link = .stopping) (b : List Byte) :
    linkStop b s = (s, [0, BitVec.ofNat 8 s.flc.link.code]) := by
  rw [← linkReply_ok]
  unfold linkStop
  rcases h with h | h <;> rw [h]

theorem linkStop_faulted (h : s.flc.link = .faulted) (b : List Byte) :
    linkStop b s = linkReply .ok (stopLink { s with flc := { s.flc with errCount := 0 } }) := by
  unfold linkStop
  rw [h]

theorem linkStop_tearsDown (h : s.flc.link = .up ∨ s.flc.link = .syncing) (b : List Byte) :
    linkStop b s = linkReply .ok (stopLink (teardown .linkStop s)) := by
  unfold linkStop
  rcases h with h | h <;> rw [h]

end

/-! ### What a free transmitter then begins -/

/-- A frame that the fabric transmitter begins takes the next sequence. -/
theorem fabPump_outSeq (x : State) : (fabPump x).flc.outSeq =
    if x.flc.tx = none ∧ (fabPump x).flc.tx ≠ none then x.flc.outSeq + 1 else x.flc.outSeq := by
  have hquiet {u : State} (htx : u.flc.tx = x.flc.tx) (hseq : u.flc.outSeq = x.flc.outSeq) : u.flc.outSeq =
      if x.flc.tx = none ∧ u.flc.tx ≠ none then x.flc.outSeq + 1 else x.flc.outSeq := by
    rw [htx, if_neg fun h => h.2 h.1]
    exact hseq
  unfold fabPump
  split
  · exact hquiet rfl rfl
  · next hfree =>
    have htx : x.flc.tx = none := Option.not_isSome_iff_eq_none.mp fun h => hfree (.inl h)
    split
    · exact (if_pos ⟨htx, nofun⟩).symm
    · split
      · exact (if_pos ⟨htx, nofun⟩).symm
      · split <;> exact hquiet rfl rfl

/-- On the way to DOWN: STOPPING while a frame is sent, and DOWN with nothing left to send (R11). -/
theorem fabPump_stopping {x : State} (h : x.flc.link = .stopping) {time : BitVec 32} (htime : x.stamp = time)
    (hx : x.ern.Holds .linkState none 0 4 time) :
    (fabPump x).flc.link = (if (fabPump x).flc.tx = none then .down else .stopping) ∧
    (fabPump x).ern.Holds .linkState none 0 (fabPump x).flc.link.code time := by
  subst htime
  by_cases htx : x.flc.tx = none
  · by_cases hfifo : x.gpm.fifo = []
    · rw [fabPump_down htx h hfifo]
      exact ⟨(if_pos htx).symm, Ern.holds_raise⟩
    · rw [fabPump_orders htx (by rw [h]; nofun) hfifo]
      have hlink : (beginOrderFrame x).flc.link = .stopping := h
      rw [hlink]
      exact ⟨rfl, hx⟩
  · have hstay : fabPump x = x := if_pos (.inl (Option.isSome_iff_ne_none.mpr htx))
    rw [hstay, h]
    exact ⟨(if_neg htx).symm, hx⟩

/-! ### The link requests that run the teardown -/

section
variable {o : EpisodeOutcome} {s x : State}

/-- A request taken: the state that its effect finds. -/
def State.taken (s : State) : State := { s with clc := s.clc.taken }

/-- The end of a link request that ran the teardown: `x` is what it left to the fabric transmitter. -/
theorem tornDown_answered (ho : o.tearsDown) (h : s.booksOk) (hok : s.prc.timersOk) (hs : s.laneSettled)
    (hup : s.flc.link = .up ∨ s.flc.link = .syncing) (hx : Later (teardown o s.taken) x)
    (hgpm : x.gpm = (teardown o s.taken).gpm) (htx : x.flc.tx = s.flc.tx) (hlink : x.flc.link ≠ .down) (c : Clc) :
    TornDown o s { fabPump x with clc := c } ∧ FreeOrdersMade s { fabPump x with clc := c } := by
  have hw : SameTables s s.taken := ⟨rfl, rfl, rfl⟩
  have hbooks : s.taken.booksOk := booksOk_clc s.clc.taken h
  obtain ⟨u, hrun, hd⟩ := teardown_eq ho hbooks hok
  have hu : x.gpm = u.gpm := by rw [hgpm, hd]; rfl
  rw [fabPump_answered]
  refine ⟨tornDown ho hw hbooks hok hx (.answered x c), ?_⟩
  exact hrun.freeOrdersMade ⟨rfl, rfl⟩ ⟨hu, htx, hlink⟩
    (fun hidle => (hs hidle (by rcases hup with h | h <;> rw [h] <;> nofun)).1) (laneTakes_settle ⟨rfl, rfl, rfl⟩)

/-- What a teardown within a link request leaves of the link. -/
theorem teardown_taken (ho : o.tearsDown) (h : s.booksOk) (hok : s.prc.timersOk) :
    (teardown o s.taken).flc = { s.flc with handed := [] } ∧ (teardown o s.taken).clc = s.clc.taken ∧
    (teardown o s.taken).stamp = s.stamp := by
  obtain ⟨hflc, _, hclc, hstamp⟩ := teardown_flc o ho (w := s.taken) (booksOk_clc s.clc.taken h) hok
  exact ⟨hflc, hclc, hstamp⟩

theorem later_restarted (d : State) : Later d d.restarted :=
  (Later.link d { d.flc with expected := 0, errCount := 0, outSeq := 0, rx := .hunting, link := .syncing } rfl).trans
    (.raise _ .linkState none 0 1 nofun)

theorem later_stopping (d : State) : Later d (d.setLink .stopping) :=
  (Later.link d { d.flc with link := .stopping } rfl).trans (.raise _ .linkState none 0 4 nofun)

end

theorem linkReset_after_teardown {s : State} {tag : Byte} (ht : Takes s ⟨0x12, tag, []⟩) (hs : s.laneSettled)
    (hup : s.flc.link = .up ∨ s.flc.link = .syncing) (hbooks : s.booksOk) (hok : s.prc.timersOk) :
    ∃ t, exec (.linkReset tag []) s = .next t ∧ TornDown .linkReset s t ∧ FreeOrdersMade s t ∧
      t.announces .linkState none 0 1 s.stamp ∧ t.flc.link = .syncing ∧
      t.flc.expected = 0 ∧ t.flc.errCount = 0 ∧ t.flc.rx = .hunting ∧
      t.flc.outSeq = (if s.flc.tx = none ∧ t.flc.tx ≠ none then 1 else 0) ∧
      t.clc = s.clc.answered ⟨0x92, tag, [0, 1]⟩ := by
  have ho : EpisodeOutcome.tearsDown .linkReset := .inr (.inr rfl)
  obtain ⟨hflc, hclc, hstamp⟩ := teardown_taken ho hbooks hok
  have heffect := linkReset_tearsDown (s := s.taken) hup []
  have hends (x : State) := tornDown_answered (x := x) ho hbooks hok hs hup
  generalize teardown .linkReset s.taken = d at *
  have htx : d.flc.tx = s.flc.tx := by rw [hflc]
  have haway : d.restarted.flc.link ≠ .stopping := nofun
  obtain ⟨hlink, hexpected, hcount, _, hrx, _⟩ := (fabPump_pumped haway).receiver
  have hseq : (fabPump d.restarted).flc.outSeq = if s.flc.tx = none ∧ (fabPump d.restarted).flc.tx ≠ none then 1 else 0 := by
    rw [← htx]
    exact fabPump_outSeq d.restarted
  have htold : (fabPump d.restarted).ern.Holds .linkState none 0 1 s.stamp := by
    rw [fabPump_ern haway, ← hstamp]
    exact Ern.holds_raise
  obtain ⟨htorn, horders⟩ := hends _ (later_restarted d) rfl htx nofun (s.clc.answered ⟨0x92, tag, [0, 1]⟩)
  have htell := Ern.Holds.announces (u := { fabPump d.restarted with clc := s.clc.answered ⟨0x92, tag, [0, 1]⟩ }) htold
  exact ⟨_, exec_taken (c := .linkReset tag []) rfl rfl ht heffect hclc, htorn, horders, htell, hlink, hexpected,
    hcount, hrx, hseq, rfl⟩

theorem linkStop_after_teardown {s : State} {tag : Byte} (ht : Takes s ⟨0x11, tag, []⟩) (hs : s.laneSettled)
    (hup : s.flc.link = .up ∨ s.flc.link = .syncing) (hbooks : s.booksOk) (hok : s.prc.timersOk) :
    ∃ t, exec (.linkStop tag []) s = .next t ∧ TornDown .linkStop s t ∧ FreeOrdersMade s t ∧
      t.announces .linkState none 0 t.flc.link.code s.stamp ∧
      t.flc.link = (if t.flc.tx = none then .down else .stopping) ∧
      t.clc = s.clc.answered ⟨0x91, tag, [0, BitVec.ofNat 8 t.flc.link.code]⟩ := by
  have ho : EpisodeOutcome.tearsDown .linkStop := .inr (.inl rfl)
  obtain ⟨hflc, hclc, hstamp⟩ := teardown_taken ho hbooks hok
  have heffect := linkStop_tearsDown (s := s.taken) hup []
  have hends (x : State) := tornDown_answered (x := x) ho hbooks hok hs hup
  generalize teardown .linkStop s.taken = d at *
  have htx : d.flc.tx = s.flc.tx := by rw [hflc]
  have hexec := exec_taken (c := .linkStop tag []) rfl rfl ht heffect ((stopLink_clc d).trans hclc)
  have hagain : fabPump (stopLink d) = stopLink d := fabPump_eq_of_laneSettled (fabPump_laneSettled _)
  rw [linkReply_ok, hagain] at hexec
  obtain ⟨hlink, htold⟩ := fabPump_stopping (x := d.setLink .stopping) rfl hstamp (by rw [← hstamp]; exact Ern.holds_raise)
  obtain ⟨htorn, horders⟩ := hends _ (later_stopping d) rfl htx nofun
    (s.clc.answered ⟨0x91, tag, [0, BitVec.ofNat 8 (stopLink d).flc.link.code]⟩)
  have htell := Ern.Holds.announces (u := { stopLink d with clc := s.clc.answered ⟨0x91, tag, [0,
    BitVec.ofNat 8 (stopLink d).flc.link.code]⟩ }) htold
  exact ⟨_, hexec, htorn, horders, htell, hlink, rfl⟩

/-- LINK_STOP in FAULTED, before what a free transmitter does (R11). -/
theorem exec_linkStop_faulted {s u : State} {tag : Byte} (ht : Takes s ⟨0x11, tag, []⟩) (hlink : s.flc.link = .faulted)
    (hu : stopLink { s.taken with flc := { s.flc with errCount := 0 } } = u) (hlane : u.laneSettled) (hclc : u.clc = s.clc.taken) :
    exec (.linkStop tag []) s =
      .next { u with clc := s.clc.answered ⟨0x91, tag, [0, BitVec.ofNat 8 u.flc.link.code]⟩ } := by
  have heffect := linkStop_faulted (s := s.taken) hlink []
  rw [show stopLink { s.taken with flc := { s.taken.flc with errCount := 0 } } = u from hu, linkReply_ok] at heffect
  have hexec := exec_taken (c := .linkStop tag []) rfl rfl ht heffect hclc
  rw [fabPump_eq_of_laneSettled (s := u) hlane] at hexec
  exact hexec

end Sys2Proof.Machine

namespace Sys2Proof.Proofs

open Sys2Proof Sys2Proof.Machine

/-- Settles O53. -/
theorem linkRequestsByState : Obligations.LinkRequestsByState := by
  refine fun s tag => ⟨fun ht hs => ⟨fun hlink htx hfifo => ?_, fun hlink htx hfifo => ?_, fun hlink => ?_⟩,
    fun ht hs => ⟨fun hlink => ?_, fun hlink => ?_, linkReset_after_teardown ht hs⟩,
    fun ht hs => ⟨fun hlink => ?_, fun hlink htx => ?_, fun hlink htx => ?_, linkStop_after_teardown ht hs⟩⟩
  · have hexec := exec_taken (c := .linkStart tag []) rfl rfl ht (linkStart_down (s := s.taken) hlink []) rfl
    rw [fabPump_idle (s := s.taken.started) htx rfl hfifo rfl] at hexec
    exact hexec
  · have hexec := exec_taken (c := .linkStart tag []) rfl rfl ht (linkStart_down (s := s.taken) hlink []) rfl
    have hcount : s.gpm.orders.length = min 32 s.gpm.fifo.length := by simp [Gpm.orders, Gpm.batch]
    rw [fabPump_orders (s := s.taken.started) htx nofun hfifo] at hexec
    rw [← hcount]
    exact hexec
  · exact exec_unchanged (c := .linkStart tag []) rfl rfl ht hs (linkStart_refused (s := s.taken) hlink [])
  · have hlane : s.restarted.laneSettled := fun htx _ => by
      obtain ⟨hfifo, hidle, _⟩ := hs htx (by rw [hlink]; nofun)
      rw [hlink] at hidle
      exact ⟨hfifo, hidle, nofun⟩
    exact exec_answers (c := .linkReset tag []) (t := s.restarted) rfl rfl ht hlane
      (linkReset_faulted (s := s.taken) hlink [])
  · exact exec_unchanged (c := .linkReset tag []) rfl rfl ht hs (linkReset_refused (s := s.taken) hlink [])
  · exact exec_unchanged (c := .linkStop tag []) rfl rfl ht hs (linkStop_same (s := s.taken) hlink [])
  · have hstay : fabPump (State.setLink .stopping { s.taken with flc := { s.flc with errCount := 0 } }) = _ :=
      if_pos (.inl (Option.isSome_iff_ne_none.mpr htx))
    exact exec_linkStop_faulted ht hlink hstay (fun h => absurd h htx) rfl
  · obtain ⟨hfifo, _⟩ := hs htx (by rw [hlink]; nofun)
    exact exec_linkStop_faulted ht hlink (fabPump_down
      (s := State.setLink .stopping { s.taken with flc := { s.flc with errCount := 0 } }) htx rfl hfifo)
      (fun _ h => absurd rfl h) rfl

end Sys2Proof.Proofs
end
